-- ==== Sys2Proof/Word.lean ====
section
/-! DEFINITION. The unit of the block's data: the byte (00_scope.md R12; every index is a byte index, 10_state.md R37). -/

namespace Sys2Proof

/-- A byte: an unsigned 8-bit value (00_scope.md R12). A byte string is a `List Byte`, index 0 first. -/
abbrev Byte := BitVec 8

end Sys2Proof
end

