-- ==== Sys2Proof/Machine/Bytes.lean ====
section
/-! DEFINITION. The byte-order helpers of 00_scope.md R13 and 20_memory.md R51, in one place. -/

namespace Sys2Proof.Machine

/-- `be16(h, l)`: the big-endian value of two bytes (00 R13). -/
def be16 (h l : Byte) : BitVec 16 := h ++ l

/-- The big-endian value of a byte string, an unbounded natural (00 R13). -/
def beNat (s : List Byte) : Nat := s.foldl (fun acc b => acc * 256 + b.toNat) 0

/-- `be64(s)` of 43_tag_extractor.md R176, for an 8-byte string. -/
def be64 (s : List Byte) : BitVec 64 := BitVec.ofNat 64 (beNat s)

/-- `bytes_be(v, n)`: the n-byte big-endian encoding of v (00 R13). -/
def bytesBe (v : Nat) : Nat → List Byte
  | 0 => []
  | n + 1 => BitVec.ofNat 8 (v / 256 ^ n) :: bytesBe v n

/-- `s[a..a+n)`: n bytes from index a (00 R12). -/
def slice (a n : Nat) (s : List Byte) : List Byte := (s.drop a).take n

end Sys2Proof.Machine
end

