-- ==== Sys2Proof/Syntax.lean ====
section
/-! DEFINITION. The request set: one constructor per row of spec/opcode_table.json (30_encoding.md R80). -/

namespace Sys2Proof

/-- A request whose header is legal or whose OP is reserved (30_encoding.md R78 to R80). Its argument bytes are carried
as a byte string whose length is the header's N; CATALOG carries its index, the field N itself (R79). The reserved rows
carry the RSV bits too, since any RSV belongs to them. -/
inductive Instr where
  /-- OP 0x0 (44 R209). -/
  | nop
  /-- OP 0x1, with the command bytes (40 R100). -/
  | encode (cmd : List Byte)
  /-- OP 0x2, with an inbound frame (40 R101). -/
  | decode (f : List Byte)
  /-- OP 0x3, with an inbound frame (40 R104). -/
  | classify (f : List Byte)
  /-- OP 0x4, with a payload (40 R106). -/
  | event (p : List Byte)
  /-- OP 0x5, with the catalog index (41 R122). -/
  | catalog (k : BitVec 9)
  /-- OP 0x6 (41 R123). -/
  | init
  /-- OP 0x7, with one transport delivery (42 R142). -/
  | deliver (f : List Byte)
  /-- OP 0x8, with a tag-read body (43 R177). -/
  | extract (b : List Byte)
  /-- OP 0x9, with identifier bytes (43 R178). -/
  | visualid (id : List Byte)
  /-- OP 0xA (44 R205). -/
  | popOut
  /-- OP 0xB (44 R206). -/
  | popBatch
  /-- OP 0xC (44 R207). -/
  | status
  /-- OP 0xD (44 R208). -/
  | sessionReset
  /-- OP 0xE, reserved (44 R210). -/
  | reservedE (rsv : BitVec 3) (arg : List Byte)
  /-- OP 0xF, reserved (44 R210). -/
  | reservedF (rsv : BitVec 3) (arg : List Byte)
deriving DecidableEq, Repr

end Sys2Proof
end

