-- ==== Sys2Proof/WellFormed.lean ====
section
/-! DEFINITION. Which terms of `Instr` a request can carry: the 9-bit field N bounds the argument (30_encoding.md R78,
R79). The other fields are bounded by their types. -/

namespace Sys2Proof

/-- FRAME_MAX: the largest argument a request can carry (00_scope.md R10, 92 D34). -/
def frameMax : Nat := 511

/-- An argument fits the 9-bit count N. -/
def argFits (arg : List Byte) : Bool := decide (arg.length ≤ frameMax)

/-- A well-formed request: every argument byte string fits N. -/
def Instr.wf : Instr → Bool
  | .nop => true
  | .encode cmd => argFits cmd
  | .decode f => argFits f
  | .classify f => argFits f
  | .event p => argFits p
  | .catalog _ => true
  | .init => true
  | .deliver f => argFits f
  | .extract b => argFits b
  | .visualid id => argFits id
  | .popOut => true
  | .popBatch => true
  | .status => true
  | .sessionReset => true
  | .reservedE _ arg => argFits arg
  | .reservedF _ arg => argFits arg

end Sys2Proof
end

