-- ==== Sys2Proof/Decode.lean ====
section
/-! DEFINITION. The request decoder and encoder, from the header format of 30_encoding.md R78, R79 and the opcode map
R80; illegal requests (R81) are rejected by name. -/

namespace Sys2Proof

open Sys2Proof.Machine

/-! ### Header fields (30_encoding.md R78) -/

/-- The field OP, header bits 15:12. -/
def headerOp (h : BitVec 16) : BitVec 4 := h.extractLsb' 12 4

/-- The field RSV, header bits 11:9. -/
def headerRsv (h : BitVec 16) : BitVec 3 := h.extractLsb' 9 3

/-- The field N, header bits 8:0, zero-extended wherever it is used. -/
def headerN (h : BitVec 16) : BitVec 9 := h.extractLsb' 0 9

/-- How many argument bytes follow the header: N for every OP, except CATALOG (0x5), which has none (R78, R87). For a
CATALOG header with RSV ≠ 000 this is DEDUCED (log 6), unsafe. -/
def argCount (h : BitVec 16) : Nat := if headerOp h = 0x5#4 then 0 else (headerN h).toNat

/-! ### Decoding -/

/-- Why a header of a defined operation is illegal (30_encoding.md R81). Case (a) of R81, the reserved OP values, has
instructions of its own (`reservedE`, `reservedF`). -/
inductive IllegalReason where
  /-- R81 (b): RSV ≠ 000. -/
  | reservedBits
  /-- R81 (c): N ≠ 0 on a request without arguments. -/
  | unexpectedArgument
deriving DecidableEq, Repr

/-- What the bytes at the request port hold. -/
inductive Decoded where
  /-- A request, and the bytes after it. -/
  | request (i : Instr) (rest : List Byte)
  /-- An illegal request (R81), rejected by name, and the bytes after its header and argument. -/
  | illegal (why : IllegalReason) (rest : List Byte)
  /-- No whole request has arrived. -/
  | incomplete
deriving DecidableEq, Repr

/-- A request with arguments: legal when RSV = 000 (R80, mask 0xFE00). -/
def withArgument (h : BitVec 16) (i : Instr) : Except IllegalReason Instr :=
  if headerRsv h = 0#3 then .ok i else .error .reservedBits

/-- A request without arguments: legal when RSV = 000 and N = 0 (R80, mask 0xFFFF). -/
def withoutArgument (h : BitVec 16) (i : Instr) : Except IllegalReason Instr :=
  if headerRsv h = 0#3 then
    if headerN h = 0#9 then .ok i else .error .unexpectedArgument
  else .error .reservedBits

/-- The request a header and its argument bytes make (the opcode map, R80). -/
def headerRequest (h : BitVec 16) (arg : List Byte) : Except IllegalReason Instr :=
  match (headerOp h).toNat with
  | 0x0 => withoutArgument h .nop
  | 0x1 => withArgument h (.encode arg)
  | 0x2 => withArgument h (.decode arg)
  | 0x3 => withArgument h (.classify arg)
  | 0x4 => withArgument h (.event arg)
  | 0x5 => withArgument h (.catalog (headerN h))
  | 0x6 => withoutArgument h .init
  | 0x7 => withArgument h (.deliver arg)
  | 0x8 => withArgument h (.extract arg)
  | 0x9 => withArgument h (.visualid arg)
  | 0xA => withoutArgument h .popOut
  | 0xB => withoutArgument h .popBatch
  | 0xC => withoutArgument h .status
  | 0xD => withoutArgument h .sessionReset
  | 0xE => .ok (.reservedE (headerRsv h) arg)
  | _ => .ok (.reservedF (headerRsv h) arg)  -- 0xF, the one value left of a 4-bit field

/-- Read one request from the front of a byte string. Total on any bytes: a header whose argument bytes have not all
arrived, or no whole header, is `incomplete`. -/
def decode : List Byte → Decoded
  | b0 :: b1 :: body =>
    if body.length < argCount (be16 b0 b1) then .incomplete
    else
      match headerRequest (be16 b0 b1) (body.take (argCount (be16 b0 b1))) with
      | .ok i => .request i (body.drop (argCount (be16 b0 b1)))
      | .error why => .illegal why (body.drop (argCount (be16 b0 b1)))
  | _ => .incomplete

/-! ### Encoding -/

/-- A header from its three fields (R78). -/
def headerOf (op : BitVec 4) (rsv : BitVec 3) (n : BitVec 9) : BitVec 16 := op ++ rsv ++ n

/-- A header as it is sent: two bytes, big-endian (R78). -/
def headerBytes (h : BitVec 16) : List Byte := [h.extractLsb' 8 8, h.extractLsb' 0 8]

/-- The count field of an argument. -/
def countOf (arg : List Byte) : BitVec 9 := BitVec.ofNat 9 arg.length

/-- The header of a request (R78 to R80). -/
def Instr.header : Instr → BitVec 16
  | .nop => headerOf 0x0#4 0#3 0#9
  | .encode cmd => headerOf 0x1#4 0#3 (countOf cmd)
  | .decode f => headerOf 0x2#4 0#3 (countOf f)
  | .classify f => headerOf 0x3#4 0#3 (countOf f)
  | .event p => headerOf 0x4#4 0#3 (countOf p)
  | .catalog k => headerOf 0x5#4 0#3 k
  | .init => headerOf 0x6#4 0#3 0#9
  | .deliver f => headerOf 0x7#4 0#3 (countOf f)
  | .extract b => headerOf 0x8#4 0#3 (countOf b)
  | .visualid id => headerOf 0x9#4 0#3 (countOf id)
  | .popOut => headerOf 0xA#4 0#3 0#9
  | .popBatch => headerOf 0xB#4 0#3 0#9
  | .status => headerOf 0xC#4 0#3 0#9
  | .sessionReset => headerOf 0xD#4 0#3 0#9
  | .reservedE rsv arg => headerOf 0xE#4 rsv (countOf arg)
  | .reservedF rsv arg => headerOf 0xF#4 rsv (countOf arg)

/-- The argument bytes of a request (R79). -/
def Instr.argument : Instr → List Byte
  | .nop => []
  | .encode cmd => cmd
  | .decode f => f
  | .classify f => f
  | .event p => p
  | .catalog _ => []
  | .init => []
  | .deliver f => f
  | .extract b => b
  | .visualid id => id
  | .popOut => []
  | .popBatch => []
  | .status => []
  | .sessionReset => []
  | .reservedE _ arg => arg
  | .reservedF _ arg => arg

/-- The bytes of a request: its header, then its argument (R78). -/
def encode (i : Instr) : List Byte := headerBytes i.header ++ i.argument

/-! ### The opcode table (spec/opcode_table.json; 30_encoding.md R80) -/

/-- One row of the table: which headers are legal encodings of an operation. -/
structure OpRow where
  mnemonic : String
  pattern : BitVec 16
  mask : BitVec 16
deriving DecidableEq, Repr

/-- A header matches a row when its masked bits are the row's pattern (R80). -/
def OpRow.covers (r : OpRow) (h : BitVec 16) : Bool := h &&& r.mask == r.pattern

/-- The table's row of each request. -/
def Instr.row : Instr → OpRow
  | .nop => ⟨"NOP", 0x0000#16, 0xFFFF#16⟩
  | .encode _ => ⟨"ENCODE", 0x1000#16, 0xFE00#16⟩
  | .decode _ => ⟨"DECODE", 0x2000#16, 0xFE00#16⟩
  | .classify _ => ⟨"CLASSIFY", 0x3000#16, 0xFE00#16⟩
  | .event _ => ⟨"EVENT", 0x4000#16, 0xFE00#16⟩
  | .catalog _ => ⟨"CATALOG", 0x5000#16, 0xFE00#16⟩
  | .init => ⟨"INIT", 0x6000#16, 0xFFFF#16⟩
  | .deliver _ => ⟨"DELIVER", 0x7000#16, 0xFE00#16⟩
  | .extract _ => ⟨"EXTRACT", 0x8000#16, 0xFE00#16⟩
  | .visualid _ => ⟨"VISUALID", 0x9000#16, 0xFE00#16⟩
  | .popOut => ⟨"POP_OUT", 0xA000#16, 0xFFFF#16⟩
  | .popBatch => ⟨"POP_BATCH", 0xB000#16, 0xFFFF#16⟩
  | .status => ⟨"STATUS", 0xC000#16, 0xFFFF#16⟩
  | .sessionReset => ⟨"SESSION_RESET", 0xD000#16, 0xFFFF#16⟩
  | .reservedE _ _ => ⟨"RESERVED_E", 0xE000#16, 0xF000#16⟩
  | .reservedF _ _ => ⟨"RESERVED_F", 0xF000#16, 0xF000#16⟩

/-- The whole table, in its own order: one request of each row names the row. -/
def opcodeTable : List OpRow :=
  [Instr.nop, .encode [], .decode [], .classify [], .event [], .catalog 0, .init, .deliver [], .extract [], .visualid [],
   .popOut, .popBatch, .status, .sessionReset, .reservedE 0 [], .reservedF 0 []].map Instr.row

/-! ### Table words (log 10) -/

/-- The low `nbits` bits of w as the block takes them: 16-bit words, the first word in the lowest 16 bits, each word sent
as two big-endian bytes (R78). -/
def tableWordBytes (nbits w : Nat) : List Byte :=
  (List.range ((nbits + 15) / 16)).flatMap (fun j => bytesBe (w % 2 ^ nbits / 65536 ^ j % 65536) 2)

/-- The bytes of the one request that starts with that table word: the bytes above it are zero, and there are as many
argument bytes as its header counts. -/
def tableWordRequest (nbits w : Nat) : List Byte :=
  match tableWordBytes nbits w ++ List.replicate frameMax 0#8 with
  | b0 :: b1 :: body => b0 :: b1 :: body.take (argCount (be16 b0 b1))
  | short => short

/-- The request the decoder reads from a table word; none where it is illegal. -/
def decodeTableWord (nbits w : Nat) : Option Instr :=
  match decode (tableWordRequest nbits w) with
  | .request i _ => some i
  | _ => none

end Sys2Proof
end

