-- ==== Sys2Proof/Machine/Constants.lean ====
section
/-! DEFINITION. The fixed values the source settles (00_scope.md R8) and the bounds derived from them (R10), each a
named constant (93_implementation_defined.md I7: the literals are unaudited, log 11). -/

namespace Sys2Proof.Machine

/-- HDR_LEN: bytes of frame header; the payload starts at this frame byte (00 R8). UNVERIFIED (log 11), unsafe. -/
def hdrLen : Nat := 8

/-- DEST_OFS: frame offset of the destination code (00 R8, 90_conflicts.md C1). UNVERIFIED (log 11), unsafe. -/
def destOfs : Nat := 3

/-- LEN_INDICATOR: the value the encoder writes at frame offset 2 (00 R8, 90 C7). UNVERIFIED (log 11), unsafe. -/
def lenIndicator : Byte := 0x0A#8

/-- CRC_DOWN: the two CRC bytes of every outbound frame (00 R8). UNVERIFIED (log 11), unsafe. -/
def crcDown : List Byte := [0x00#8, 0x00#8]

/-- EVT_OFS: payload offset of the 2-byte event code (00 R8). UNVERIFIED (log 11), unsafe. -/
def evtOfs : Nat := 0

/-- PC_LEN_SHIFT: right shift applied to the product code (00 R8). UNVERIFIED (log 11), unsafe. -/
def pcLenShift : Nat := 11

/-- PC_LEN_MULT: multiplier from words to bytes (00 R8). UNVERIFIED (log 11), unsafe. -/
def pcLenMult : Nat := 2

/-- VID_LO: first identifier byte of the visual ID (00 R8). UNVERIFIED (log 11), unsafe. -/
def vidLo : Nat := 3

/-- VID_HI: last identifier byte of the visual ID, inclusive (00 R8). UNVERIFIED (log 11), unsafe. -/
def vidHi : Nat := 10

/-- The number of identifier bytes in the visual ID, 8 (00 R8, 43_tag_extractor.md R176). -/
def vidLen : Nat := vidHi + 1 - vidLo

end Sys2Proof.Machine
end

