-- ==== Sys2Proof/Config.lean ====
section
/-! DEFINITION. The configuration parameters the source leaves open, as the record CFG of 00_scope.md R9, their
constraints, and the one configuration of the machine that `State.reset` starts (log 1, log 2). -/

namespace Sys2Proof

/-- The record CFG (00_scope.md R9). The first twelve fields are OPEN: the spec gives them no value. The last four have
the defaults 92_eei_decisions.md D15, D21 and D22 decide. A natural number is a Nat; every list is plain data. -/
structure Cfg where
  /-- PREFIX: frame byte 0 outbound. -/
  prefixByte : Byte
  /-- CONN: frame byte 1 outbound. -/
  conn : Byte
  /-- RESERVED_BYTE: frame byte 4 outbound. -/
  reservedByte : Byte
  /-- DIR_DOWN: frame byte 5 outbound. -/
  dirDown : Byte
  /-- DEST_RFID: destination code of RFID frames. -/
  destRfid : Byte
  /-- DEST_NOTIF: destination code of notification frames. -/
  destNotif : Byte
  /-- EVT_CMD: event code of a command acknowledgment. -/
  evtCmd : BitVec 16
  /-- EVT_TAGREAD: event code of tag-read data. -/
  evtTagRead : BitVec 16
  /-- NTF_TRIG_PUSHED: notification event code of a pushed trigger. -/
  ntfTrigPushed : BitVec 16
  /-- NTF_TRIG_RELEASED: notification event code of a released trigger. -/
  ntfTrigReleased : BitVec 16
  /-- N_INIT: the number of entries of the initialization sequence. -/
  nInit : Nat
  /-- CATALOG: N_INIT initialization entries, then start inventory, then abort inventory (41_command_catalog.md R120). -/
  catalog : List (List Byte)
  /-- FLUSH_SKIP: bytes a flush skips at the start of the buffer. -/
  flushSkip : Nat := 10
  /-- BUF_CAP: capacity of the reassembly buffer. -/
  bufCap : Nat := 4096
  /-- OUT_DEPTH: capacity of OUTQ. -/
  outDepth : Nat := 16
  /-- BATCH_DEPTH: capacity of BATCHQ. -/
  batchDepth : Nat := 8
deriving DecidableEq, Repr, Inhabited

/-- The constraints of 00_scope.md R9, one conjunct per constrained parameter (CATALOG: its entry count and each entry's
length, 92 D35). -/
def Cfg.wf (c : Cfg) : Bool :=
  c.destRfid != c.destNotif
  && c.evtCmd != c.evtTagRead
  && c.ntfTrigPushed != c.ntfTrigReleased
  && decide (c.nInit ≤ c.outDepth)
  && c.catalog.length == c.nInit + 2
  && c.catalog.all (fun e => decide (e.length ≤ 503))
  && decide (c.flushSkip ≤ c.bufCap)
  && decide (511 ≤ c.bufCap) && decide (c.bufCap ≤ 4096)
  && decide (1 ≤ c.outDepth) && decide (c.outDepth ≤ 255)
  && decide (1 ≤ c.batchDepth) && decide (c.batchDepth ≤ 255)

/-- A well-formed configuration. "A configuration that breaks a constraint is ill-formed, and the model refuses it"
(00_scope.md R9): no ill-formed configuration is a value of this type, so no state holds one. DESIGN CHOICE (log 1), safe. -/
abbrev Config := { c : Cfg // c.wf = true }

/-- The model's check of a configuration: `none` refuses an ill-formed one (00_scope.md R9). -/
def Config.ofCfg (c : Cfg) : Option Config :=
  if h : c.wf = true then some ⟨c, h⟩ else none

/-- A configuration with every constraint met and nothing else to say for it. It only shows that `Config` has a value. -/
def Cfg.least : Cfg where
  prefixByte := 0
  conn := 0
  reservedByte := 0
  dirDown := 0
  destRfid := 0
  destNotif := 1
  evtCmd := 0
  evtTagRead := 1
  ntfTrigPushed := 0
  ntfTrigReleased := 1
  nInit := 0
  catalog := [[], []]

/-- The parameters of the implementation at hand (00_scope.md R9: OPEN). It has no body: nothing can be proved about
any of its fields. DESIGN CHOICE (log 2), safe. -/
opaque Config.given : Cfg

/-- The configuration of the machine that `State.reset` starts: the given parameters when they are well-formed. What
`Config.given` is cannot be proved, so a statement about this configuration is a statement about every well-formed one.
DESIGN CHOICE (log 2), safe. -/
def Config.implementation : Config :=
  if h : Config.given.wf = true then ⟨Config.given, h⟩ else ⟨Cfg.least, by decide⟩

end Sys2Proof
end

