-- ==== Sys2Proof/Machine/State.lean ====
section
/-! DEFINITION. The state of the block (10_state.md R20), the values it holds, the reasons a step can stop, and the
state right after reset (70_reset_and_hazards.md R260). -/

namespace Sys2Proof.Machine

/-- The status codes of 60_exceptions.md R230, by name. -/
inductive Status where
  /-- Success. -/
  | ok
  /-- "fewer bytes than the minimum header/field width". -/
  | truncatedFrame
  /-- A product code of zero (43 R172). -/
  | invalidProductCode
  /-- An append beyond BUF_CAP (42 R148). -/
  | bufferOverflow
  /-- A bad OP, RSV or N (30 R81). -/
  | illegalOp
  /-- A catalog index above N_INIT + 1 (41 R122). -/
  | badIndex
  /-- A pop of an empty FIFO (44 R205, R206). -/
  | empty
  /-- A full FIFO (42 R143, 41 R123). -/
  | busy
deriving DecidableEq, Repr

/-- The frame classes of 30_encoding.md R86. -/
inductive FrameClass where
  | notification
  | rfidCommandAck
  | rfidTagRead
  | rfidOther
  | unclassified
deriving DecidableEq, Repr

/-- A tag record (10_state.md R35). -/
structure TagRecord where
  /-- The product code. -/
  pc : BitVec 16
  /-- The identifier bytes. -/
  id : List Byte
  /-- The signal strength. -/
  rssi : Byte
  /-- Whether the identifier has a visual ID. -/
  vidValid : Bool
  /-- The visual ID. -/
  vid : BitVec 64
deriving DecidableEq, Repr

/-- A batch result `{status, records}` (10_state.md R27, R36). -/
structure Batch where
  status : Status
  records : List TagRecord
deriving DecidableEq, Repr

/-- A response: its status and its data (30_encoding.md R82). -/
structure Response where
  status : Status
  data : List Byte
deriving DecidableEq, Repr

/-- The state of the block. Fields `buf` to `discardCount` are the tuple S of 10_state.md R20. The last three fields are
the model's own: the configuration is a constant of the spec that no step writes (log 1), `rx` and `response` are the two
sides of the request port (log 3, log 4). -/
structure State where
  /-- BUF, the reassembly buffer (10 R23). -/
  buf : List Byte
  /-- OUTQ, outbound frames, oldest first (10 R26). -/
  outq : List (List Byte)
  /-- BATCHQ, batch results, oldest first (10 R27). -/
  batchq : List Batch
  /-- LAST_CLASS: the class code of the latest delivery, 7 for none (10 R28). -/
  lastClass : BitVec 3
  /-- LAST_FLUSH: the status code of the latest BATCHQ entry pushed, 0xFF for none (10 R29). -/
  lastFlush : BitVec 8
  /-- ACK_COUNT (10 R30). -/
  ackCount : BitVec 16
  /-- DISCARD_COUNT (10 R31). -/
  discardCount : BitVec 16
  /-- CFG, the well-formed configuration (00 R9). DESIGN CHOICE (log 1), safe. -/
  cfg : Config
  /-- Request bytes put at the request port and not yet accepted. DESIGN CHOICE (log 3), safe. -/
  rx : List Byte
  /-- The response of the latest request; none before the first. DESIGN CHOICE (log 4), safe. -/
  response : Option Response
deriving DecidableEq, Repr

/-- Why the machine could stop with a fault: never. The block has no traps (60_exceptions.md R236), every error is a
status in a response or in a BATCHQ entry, and no access leaves its byte string. No step raises a fault; the type has no
constructor, so this is checked. DEDUCED (log 7), unsafe: a block that hangs is not seen. -/
inductive Fault where
deriving DecidableEq, Repr

/-- Why an instruction could be refused. -/
inductive Refusal where
  /-- An instruction without a meaning, by its mnemonic: raised by an arm of `exec` only. Every instruction of this model
  has its meaning, so no arm raises it. Safe: a refused step proves nothing. -/
  | notModelled (mnemonic : String)
deriving DecidableEq, Repr

/-- The state right after reset under a given configuration (70_reset_and_hazards.md R260): reset does not change CFG. -/
def State.resetWith (c : Config) : State where
  buf := []
  outq := []
  batchq := []
  lastClass := 7#3
  lastFlush := 0xFF#8
  ackCount := 0#16
  discardCount := 0#16
  cfg := c
  rx := []
  response := none

/-- The state right after reset (70 R260), of the implementation at hand. -/
def State.reset : State := State.resetWith Config.implementation

end Sys2Proof.Machine
end

