-- ==== Sys2Proof/Machine/Operands.lean ====
section
/-! DEFINITION. The operand forms: the fields of a wire frame (30_encoding.md R70), its class (40_frame_codec.md R102,
R103), the event code of a payload (R105), the outbound frame template (30 R72) and the catalog entries (41 R120). -/

namespace Sys2Proof.Machine

/-- The payload of a frame: frame bytes from offset 8 (30 R70). -/
def payload (f : List Byte) : List Byte := f.drop hdrLen

/-- Whether f is a frame with the destination code d: a whole header, and d at byte 3 (40 R102). -/
def hasDestination (d : Byte) (f : List Byte) : Bool := decide (hdrLen ≤ f.length) && f[destOfs]? == some d

/-- `isNotificationFrame` (40 R102). -/
def isNotificationFrame (c : Cfg) (f : List Byte) : Bool := hasDestination c.destNotif f

/-- `isRfidFrame` (40 R102). -/
def isRfidFrame (c : Cfg) (f : List Byte) : Bool := hasDestination c.destRfid f

/-- `eventCode` of a payload: its first two bytes, big-endian (40 R105). -/
def eventCode (p : List Byte) : Except Status (BitVec 16) :=
  match p.drop evtOfs with
  | h :: l :: _ => .ok (be16 h l)
  | _ => .error .truncatedFrame

/-- The class of an RFID frame, by its event code (40 R103). -/
def rfidClass (c : Cfg) (f : List Byte) : FrameClass :=
  match eventCode (payload f) with
  | .error _ => .rfidOther
  | .ok e =>
    if e = c.evtTagRead then .rfidTagRead
    else if e = c.evtCmd then .rfidCommandAck
    else .rfidOther

/-- `classify` (40 R103), total on every byte string. -/
def classify (c : Cfg) (f : List Byte) : FrameClass :=
  if isNotificationFrame c f then .notification
  else if isRfidFrame c f then rfidClass c f
  else .unclassified

/-- `HDR_DOWN`, the outbound header template (30 R72). -/
def hdrDown (c : Cfg) : List Byte :=
  [c.prefixByte, c.conn, lenIndicator, c.destRfid, c.reservedByte, c.dirDown] ++ crcDown

/-- An outbound frame: the template, then the command (30 R72, 40 R100). -/
def outboundFrame (c : Cfg) (cmd : List Byte) : List Byte := hdrDown c ++ cmd

/-- `CATALOG[k]` (41 R120). A well-formed configuration has an entry for every k ≤ N_INIT + 1; no other k is read. -/
def catalogEntry (c : Cfg) (k : Nat) : List Byte := c.catalog.getD k []

/-- START_IDX: the index of start inventory (41 R120). -/
def startIdx (c : Cfg) : Nat := c.nInit

/-- ABORT_IDX: the index of abort inventory (41 R120). -/
def abortIdx (c : Cfg) : Nat := c.nInit + 1

/-- The frames of the initialization sequence, in index order (41 R120, R123). -/
def initFrames (c : Cfg) : List (List Byte) :=
  (List.range c.nInit).map (fun k => outboundFrame c (catalogEntry c k))

end Sys2Proof.Machine
end

