-- ==== Sys2Proof/Machine/Flags.lean ====
section
/-! DEFINITION. Codes and the read-only STATUS view (10_state.md R32, R33): the block's only flag-like fields. -/

namespace Sys2Proof.Machine

/-- The numeric status codes (60_exceptions.md R230). -/
def Status.code : Status → Byte
  | .ok => 0x00#8
  | .truncatedFrame => 0x01#8
  | .invalidProductCode => 0x02#8
  | .bufferOverflow => 0x03#8
  | .illegalOp => 0x04#8
  | .badIndex => 0x05#8
  | .empty => 0x06#8
  | .busy => 0x07#8

/-- The class codes (30_encoding.md R86). -/
def FrameClass.code : FrameClass → BitVec 3
  | .notification => 0#3
  | .rfidCommandAck => 1#3
  | .rfidTagRead => 2#3
  | .rfidOther => 3#3
  | .unclassified => 4#3

/-- The reassembler's mode, derived from the buffer (10_state.md R25). -/
inductive Mode where
  | idle
  | accumulating
deriving DecidableEq, Repr

/-- Idle when BUF is empty, Accumulating otherwise (10 R25). -/
def State.mode (s : State) : Mode := if s.buf = [] then .idle else .accumulating

/-- ACCUM: 1 iff the mode is Accumulating (10 R32). -/
def State.accum (s : State) : BitVec 1 := if s.mode = .accumulating then 1#1 else 0#1

/-- Byte 0 of the STATUS image: bits 7:4 zero, LAST_CLASS in bits 3:1, ACCUM in bit 0 (10 R32). -/
def State.statusByte (s : State) : Byte := 0#4 ++ s.lastClass ++ s.accum

/-- The 10-byte STATUS image (10 R32, 30_encoding.md R85). -/
def State.statusImage (s : State) : List Byte :=
  [s.statusByte, s.lastFlush]
    ++ bytesBe s.buf.length 2
    ++ bytesBe s.outq.length 1
    ++ bytesBe s.batchq.length 1
    ++ bytesBe s.ackCount.toNat 2
    ++ bytesBe s.discardCount.toNat 2

end Sys2Proof.Machine
end

