-- ==== Sys2Proof/Machine/Ops.lean ====
section
/-! DEFINITION. The named operations over the state (00_scope.md R14): responding, raising an error, the buffer, the two
FIFOs, the status fields; and what the host does to the block from outside (70_reset_and_hazards.md R261). -/

namespace Sys2Proof.Machine

/-! ### The request port -/

/-- `respond(status, data)`: ends the transaction with a response (00 R14, 30 R82). -/
def State.respond (st : Status) (data : List Byte) (s : State) : State := { s with response := some ⟨st, data⟩ }

/-- `raise K` means `respond(K, [])` with no state change (00 R14). This is the block's whole error entry: no error
changes a mode, saves a return point, masks anything or redirects control, and there is no return-from-error request
(60_exceptions.md R236, R237). -/
def State.raise (k : Status) (s : State) : State := s.respond k []

/-- The block accepts a request: the bytes after it stay at the port (30 R78, R81; log 3). -/
def State.accept (rest : List Byte) (s : State) : State := { s with rx := rest }

/-- An illegal request: IllegalOp, no data, no state change (30 R81). -/
def State.refuseIllegal (s : State) : State := s.raise .illegalOp

/-- No whole request at the port: nothing happens (60 R245: the state persists). DEDUCED (log 5), safe. -/
def State.await (s : State) : State := s

/-! ### The reassembly buffer (00 R14, 10 R24) -/

/-- `BufSet(f)`. -/
def State.bufSet (f : List Byte) (s : State) : State := { s with buf := f }

/-- `BufAppend(f)`. -/
def State.bufAppend (f : List Byte) (s : State) : State := { s with buf := s.buf ++ f }

/-- `BufClear()`. -/
def State.bufClear (s : State) : State := { s with buf := [] }

/-! ### The FIFOs (10 R26, R27) -/

/-- Push outbound frames at the tail of OUTQ, the first one first. -/
def State.pushOut (frames : List (List Byte)) (s : State) : State := { s with outq := s.outq ++ frames }

/-- What is left of OUTQ after its head is popped. -/
def State.dropOut (rest : List (List Byte)) (s : State) : State := { s with outq := rest }

/-- Push one batch result at the tail of BATCHQ. Every push writes LAST_FLUSH (10 R29, R33), and one whose status is not
OK counts as a discard (10 R31). -/
def State.pushBatch (b : Batch) (s : State) : State :=
  { s with
    batchq := s.batchq ++ [b]
    lastFlush := b.status.code
    discardCount := if b.status = .ok then s.discardCount else s.discardCount + 1#16 }

/-- What is left of BATCHQ after its head is popped. -/
def State.dropBatch (rest : List Batch) (s : State) : State := { s with batchq := rest }

/-- OUTQ is full (42_stream_reassembler.md R142: `len(OUTQ) = OUT_DEPTH`; log 13). -/
def State.outFull (s : State) : Bool := s.outq.length == s.cfg.val.outDepth

/-- BATCHQ is full (42 R142: `len(BATCHQ) = BATCH_DEPTH`; log 13). -/
def State.batchFull (s : State) : Bool := s.batchq.length == s.cfg.val.batchDepth

/-! ### Status fields -/

/-- `ACK_COUNT <- ACK_COUNT +₁₆ 1` (10 R30). -/
def State.countAck (s : State) : State := { s with ackCount := s.ackCount + 1#16 }

/-- `LAST_CLASS <- c` (10 R28). -/
def State.noteClass (c : FrameClass) (s : State) : State := { s with lastClass := c.code }

/-- The status fields of a new session (44_dispatcher_and_control.md R208). -/
def State.clearStatus (s : State) : State :=
  { s with lastClass := 7#3, lastFlush := 0xFF#8, ackCount := 0#16, discardCount := 0#16 }

/-! ### What the host does from outside (log 9) -/

/-- The host puts request bytes at the request port, after those already there. DESIGN CHOICE (log 9), safe. -/
def State.receive (bytes : List Byte) (s : State) : State := { s with rx := s.rx ++ bytes }

/-- The host resets a running block between two requests (70 R260, R261): every element of S takes its reset value, the
configuration stays, and so do the requests the host has not yet issued. DESIGN CHOICE (log 9), safe. -/
def State.hostReset (s : State) : State := { State.resetWith s.cfg with rx := s.rx }

end Sys2Proof.Machine
end

