-- ==== Sys2Proof/Machine/Catalog.lean ====
section
/-! DEFINITION. The Command Catalog requests CATALOG and INIT (41_command_catalog.md). -/

namespace Sys2Proof.Machine

/-- CATALOG (41 R122): the command bytes of entry k, without a frame header. -/
def execCatalog (k : BitVec 9) (s : State) : Host.Outcome State Fault Refusal :=
  .next (if k.toNat > abortIdx s.cfg.val then s.raise .badIndex
    else s.respond .ok (catalogEntry s.cfg.val k.toNat))

/-- INIT (41 R123): all or nothing. The comparison is that of `OUT_DEPTH − len(OUTQ) < N_INIT` over the integers. -/
def execInit (s : State) : Host.Outcome State Fault Refusal :=
  .next (if s.cfg.val.outDepth < s.outq.length + s.cfg.val.nInit then s.raise .busy
    else (s.pushOut (initFrames s.cfg.val)).respond .ok [])

end Sys2Proof.Machine
end

