-- ==== Sys2Proof/Machine/Images.lean ====
section
/-! DEFINITION. The byte images of responses, batches and records (30_encoding.md R82, R83, R84). -/

namespace Sys2Proof.Machine

/-- The bytes of a response: status, 16-bit length, data (30 R82). -/
def Response.image (r : Response) : List Byte := [r.status.code] ++ bytesBe r.data.length 2 ++ r.data

/-- The image of a record (30 R84): pc, L, identifier, rssi, vid_valid, vid. -/
def TagRecord.image (r : TagRecord) : List Byte :=
  bytesBe r.pc.toNat 2 ++ bytesBe r.id.length 1 ++ r.id ++ [r.rssi] ++ bytesBe r.vidValid.toNat 1 ++ bytesBe r.vid.toNat 8

/-- The image of a batch (30 R83): status, 16-bit record count, records. -/
def Batch.image (b : Batch) : List Byte :=
  [b.status.code] ++ bytesBe b.records.length 2 ++ b.records.flatMap TagRecord.image

/-- What the host reads at the response port after a request: nothing before the first request (log 4). -/
def State.responseBytes (s : State) : List Byte := (s.response.map Response.image).getD []

end Sys2Proof.Machine
end

