-- ==== Sys2Proof/Machine/Control.lean ====
section
/-! DEFINITION. The output-port and control requests POP_OUT, POP_BATCH, STATUS, SESSION_RESET, NOP and the reserved
opcodes (44_dispatcher_and_control.md R205 to R210). -/

namespace Sys2Proof.Machine

/-- NOP (44 R209). -/
def execNop (s : State) : Host.Outcome State Fault Refusal := .next (s.respond .ok [])

/-- POP_OUT (44 R205). -/
def execPopOut (s : State) : Host.Outcome State Fault Refusal :=
  .next (match s.outq with
    | [] => s.raise .empty
    | frame :: rest => (s.dropOut rest).respond .ok frame)

/-- POP_BATCH (44 R206): OK even when the popped batch is an error batch. -/
def execPopBatch (s : State) : Host.Outcome State Fault Refusal :=
  .next (match s.batchq with
    | [] => s.raise .empty
    | b :: rest => (s.dropBatch rest).respond .ok b.image)

/-- STATUS (44 R207). -/
def execStatus (s : State) : Host.Outcome State Fault Refusal := .next (s.respond .ok s.statusImage)

/-- SESSION_RESET (44 R208): the partial batch is dropped, not flushed; OUTQ and BATCHQ keep their entries. -/
def execSessionReset (s : State) : Host.Outcome State Fault Refusal :=
  .next ((s.bufClear.clearStatus).respond .ok [])

/-- The reserved opcode 0xE (44 R210): RSV and argument are not looked at. -/
def execReservedE (_rsv : BitVec 3) (_arg : List Byte) (s : State) : Host.Outcome State Fault Refusal :=
  .next s.refuseIllegal

/-- The reserved opcode 0xF (44 R210): RSV and argument are not looked at. -/
def execReservedF (_rsv : BitVec 3) (_arg : List Byte) (s : State) : Host.Outcome State Fault Refusal :=
  .next s.refuseIllegal

end Sys2Proof.Machine
end

