-- ==== Sys2Proof/Machine/Extractor.lean ====
section
/-! DEFINITION. The Tag Record Extractor and its requests EXTRACT and VISUALID (43_tag_extractor.md). -/

namespace Sys2Proof.Machine

/-- The identifier length in bytes, `(pc >> 11) × 2` (43 R173, 30_encoding.md R77). -/
def idLength (pc : BitVec 16) : Nat := (pc >>> pcLenShift).toNat * pcLenMult

/-- `visualId` (43 R176): bytes 3 to 10 reversed, read big-endian; none below 11 bytes. -/
def visualId (id : List Byte) : Bool × BitVec 64 :=
  if id.length < vidHi + 1 then (false, 0#64) else (true, be64 (slice vidLo vidLen id).reverse)

/-- The record a product code, identifier and signal-strength byte make (43 R170). -/
def makeRecord (pc : BitVec 16) (id : List Byte) (rssi : Byte) : TagRecord where
  pc := pc
  id := id
  rssi := rssi
  vidValid := (visualId id).1
  vid := (visualId id).2

/-- The identifier and signal-strength byte after a product code, and the input after them (43 R174, step 4). The input
has fewer than L + 1 bytes exactly when nothing is left after its first L. -/
def readBody (pc : BitVec 16) (body : List Byte) : Except Status (TagRecord × List Byte) :=
  match body.drop (idLength pc) with
  | [] => .error .truncatedFrame
  | rssi :: rest => .ok (makeRecord pc (body.take (idLength pc)) rssi, rest)

/-- One sub-record from the front of a non-empty input (43 R170 to R174): step 1, step 2, then steps 3 to 5. -/
def readRecord : List Byte → Except Status (TagRecord × List Byte)
  | b0 :: b1 :: body =>
    if be16 b0 b1 = 0#16 then .error .invalidProductCode else readBody (be16 b0 b1) body
  | _ => .error .truncatedFrame

/-- The loop of 43 R170, with the records read so far. Each round takes at least three bytes, so a fuel of the input's
length never runs out (`extractBatch_cons` in Laws/Extractor.lean). -/
def extractLoop : Nat → List Byte → List TagRecord → Batch
  | _, [], recs => ⟨.ok, recs⟩
  | 0, _ :: _, _ => ⟨.truncatedFrame, []⟩
  | fuel + 1, b :: rest, recs =>
    match readRecord (b :: rest) with
    | .error k => ⟨k, []⟩
    | .ok (r, input) => extractLoop fuel input (recs ++ [r])

/-- `extractBatch` (43 R170): all records in input order, or the first failure and no records (R175). -/
def extractBatch (input : List Byte) : Batch := extractLoop input.length input []

/-- EXTRACT (43 R177): the batch image is the data whatever the status. -/
def execExtract (b : List Byte) (s : State) : Host.Outcome State Fault Refusal :=
  .next (s.respond (extractBatch b).status (extractBatch b).image)

/-- VISUALID (43 R178). -/
def execVisualid (id : List Byte) (s : State) : Host.Outcome State Fault Refusal :=
  .next (s.respond .ok (bytesBe (visualId id).1.toNat 1 ++ bytesBe (visualId id).2.toNat 8))

end Sys2Proof.Machine
end

