-- ==== Sys2Proof/Machine/FrameCodec.lean ====
section
/-! DEFINITION. The Frame Codec requests ENCODE, DECODE, CLASSIFY, EVENT (40_frame_codec.md). None of them changes the
block state. -/

namespace Sys2Proof.Machine

/-- ENCODE (40 R100): the outbound frame of a command. -/
def execEncode (cmd : List Byte) (s : State) : Host.Outcome State Fault Refusal :=
  .next (s.respond .ok (outboundFrame s.cfg.val cmd))

/-- `decodeFrame` (40 R101): the destination byte, then the payload; a frame with no whole header is truncated. -/
def decodeFrame (f : List Byte) : Except Status (List Byte) :=
  if f.length < hdrLen then .error .truncatedFrame else .ok ((f.drop destOfs).take 1 ++ payload f)

/-- DECODE (40 R101). -/
def execDecode (f : List Byte) (s : State) : Host.Outcome State Fault Refusal :=
  .next (match decodeFrame f with
    | .error k => s.raise k
    | .ok data => s.respond .ok data)

/-- A class code as a response byte (40 R104). -/
def classByte (c : FrameClass) : Byte := BitVec.setWidth 8 c.code

/-- CLASSIFY (40 R104). -/
def execClassify (f : List Byte) (s : State) : Host.Outcome State Fault Refusal :=
  .next (s.respond .ok [classByte (classify s.cfg.val f)])

/-- EVENT (40 R106). -/
def execEvent (p : List Byte) (s : State) : Host.Outcome State Fault Refusal :=
  .next (match eventCode p with
    | .error k => s.raise k
    | .ok e => s.respond .ok (bytesBe e.toNat 2))

end Sys2Proof.Machine
end

