-- ==== Sys2Proof/Machine/Reassembler.lean ====
section
/-! DEFINITION. The Stream Reassembler and its request DELIVER (42_stream_reassembler.md), with the Command Dispatcher
that runs inside it (44_dispatcher_and_control.md R200). -/

namespace Sys2Proof.Machine

/-- `flush` (42 R141): whether it pushed a BATCHQ entry, and the state after it. An empty buffer is not extracted. -/
def flush (s : State) : Bool × State :=
  if s.buf = [] then (false, s)
  else (true, (s.pushBatch (extractBatch (s.buf.drop s.cfg.val.flushSkip))).bufClear)

/-- `overflow` (42 R148): the partial batch and the chunk are dropped. -/
def overflow (s : State) : Bool × State := (true, (s.pushBatch ⟨.bufferOverflow, []⟩).bufClear)

/-- The command the dispatcher emits for a notification (44 R200): start inventory, abort inventory, or none. -/
def dispatchCommand (c : Cfg) (f : List Byte) : Option (List Byte) :=
  match eventCode (payload f) with
  | .error _ => none
  | .ok e =>
    if e = c.ntfTrigPushed then some (catalogEntry c (startIdx c))
    else if e = c.ntfTrigReleased then some (catalogEntry c (abortIdx c))
    else none

/-- `dispatch` (44 R200): whether it pushed an OUTQ frame, and the state after it. -/
def dispatch (f : List Byte) (s : State) : Bool × State :=
  match dispatchCommand s.cfg.val f with
  | some cmd => (true, s.pushOut [outboundFrame s.cfg.val cmd])
  | none => (false, s)

/-- What processing one delivery did: whether it pushed a BATCHQ entry, whether it pushed an OUTQ frame, and the state
after it (42 R142). -/
structure Delivery where
  flushed : Bool
  emitted : Bool
  after : State

/-- The class action of a classified delivery (42 R142, R144, R145, R146), in the state after its flush. The
continuation chunk has no class action of its own (R147). -/
def classAction (c : FrameClass) (f : List Byte) (s : State) : Bool × State :=
  match c with
  | .notification => dispatch f s
  | .rfidTagRead => (false, s.bufSet f)
  | .rfidCommandAck => (false, s.countAck)
  | .rfidOther => (false, s)
  | .unclassified => (false, s)

/-- A classified delivery: the flush, always before the class action (42 R142, 60_exceptions.md R235). -/
def takeFrame (c : FrameClass) (f : List Byte) (s : State) : Delivery where
  flushed := (flush s).1
  emitted := (classAction c f (flush s).2).1
  after := (classAction c f (flush s).2).2

/-- A continuation chunk (42 R147, R148): appended, or dropped with the partial batch when it does not fit. -/
def takeChunk (f : List Byte) (s : State) : Delivery :=
  if s.cfg.val.bufCap < s.buf.length + f.length then ⟨(overflow s).1, false, (overflow s).2⟩
  else ⟨false, false, s.bufAppend f⟩

/-- One delivery of class c (42 R142). -/
def takeDelivery (c : FrameClass) (f : List Byte) (s : State) : Delivery :=
  if c = .unclassified then takeChunk f s else takeFrame c f s

/-- The data byte of DELIVER, `c + 8 × flushed + 16 × emitted` (42 R142). -/
def deliverByte (c : FrameClass) (flushed emitted : Bool) : Byte :=
  BitVec.ofNat 8 (c.code.toNat + 8 * flushed.toNat + 16 * emitted.toNat)

/-- The end of a delivery: LAST_CLASS, then the response (42 R142). -/
def finishDelivery (c : FrameClass) (d : Delivery) : State :=
  (d.after.noteClass c).respond .ok [deliverByte c d.flushed d.emitted]

/-- DELIVER when no FIFO is full (42 R142). -/
def acceptDelivery (f : List Byte) (s : State) : State :=
  finishDelivery (classify s.cfg.val f) (takeDelivery (classify s.cfg.val f) f s)

/-- DELIVER (42 R142, R143). -/
def execDeliver (f : List Byte) (s : State) : Host.Outcome State Fault Refusal :=
  .next (if s.outFull || s.batchFull then s.raise .busy else acceptDelivery f s)

end Sys2Proof.Machine
end

