-- ==== Sys2Proof/Machine/Dispatch.lean ====
section
/-! DEFINITION. The meaning of each request: one arm per row of the opcode map (30_encoding.md R80). -/

namespace Sys2Proof.Machine

def exec (i : Instr) (s : State) : Host.Outcome State Fault Refusal :=
  match i with
  | .nop => Sys2Proof.Machine.execNop s
  | .encode cmd => Sys2Proof.Machine.execEncode cmd s
  | .decode f => Sys2Proof.Machine.execDecode f s
  | .classify f => Sys2Proof.Machine.execClassify f s
  | .event p => Sys2Proof.Machine.execEvent p s
  | .catalog k => Sys2Proof.Machine.execCatalog k s
  | .init => Sys2Proof.Machine.execInit s
  | .deliver f => Sys2Proof.Machine.execDeliver f s
  | .extract b => Sys2Proof.Machine.execExtract b s
  | .visualid id => Sys2Proof.Machine.execVisualid id s
  | .popOut => Sys2Proof.Machine.execPopOut s
  | .popBatch => Sys2Proof.Machine.execPopBatch s
  | .status => Sys2Proof.Machine.execStatus s
  | .sessionReset => Sys2Proof.Machine.execSessionReset s
  | .reservedE rsv arg => Sys2Proof.Machine.execReservedE rsv arg s
  | .reservedF rsv arg => Sys2Proof.Machine.execReservedF rsv arg s

end Sys2Proof.Machine
end

