-- ==== Sys2Proof/Machine/Step.lean ====
section
/-! DEFINITION. One step: the block takes one whole request from the request port and completes it (00_scope.md R7,
20_memory.md R59). -/

namespace Sys2Proof.Machine

/-- One step (60_exceptions.md R234): the header checks first, then the request. Without a whole request at the port
nothing happens (log 5). -/
def step (s : State) : Host.Outcome State Fault Refusal :=
  match decode s.rx with
  | .request i rest => exec i (s.accept rest)
  | .illegal _ rest => .next (s.accept rest).refuseIllegal
  | .incomplete => .next s.await

/-- s with the request of a table word at the head of the request port, before what is there already (log 10). -/
def State.withFetchWord (s : State) (nbits w : Nat) : State := { s with rx := tableWordRequest nbits w ++ s.rx }

end Sys2Proof.Machine
end

