-- ==== Sys2Proof/Safety.lean ====
section
/-! DEFINITION. What a legal state is (10_state.md R23 to R35), in the terms the statements use, and what a sequence of
deliveries does. -/

namespace Sys2Proof.Machine

/-- A tag record as the extractor makes it (10 R35, 43 R172, R173, R176): a non-zero product code, an identifier of the
length it encodes, and the identifier's visual ID. -/
def TagRecord.Legal (r : TagRecord) : Prop :=
  r.pc ≠ 0#16 ∧ r.id.length = idLength r.pc ∧ (r.vidValid, r.vid) = visualId r.id

/-- A batch result (10 R27): one of four statuses, and no records unless the status is OK. -/
def Batch.Legal (b : Batch) : Prop :=
  (b.status = .ok ∨ b.status = .truncatedFrame ∨ b.status = .invalidProductCode ∨ b.status = .bufferOverflow)
    ∧ (b.status ≠ .ok → b.records = [])
    ∧ ∀ r ∈ b.records, r.Legal

/-- How many input bytes the records of a batch took: 3 + L each (30 R76). -/
def Batch.inputSize (b : Batch) : Nat := (b.records.map (fun r => 3 + r.id.length)).sum

/-- A legal state of the block: every range that 10_state.md gives its elements. -/
structure State.Inv (s : State) : Prop where
  /-- 10 R23. -/
  buf_fits : s.buf.length ≤ s.cfg.val.bufCap
  /-- 10 R26. -/
  outq_fits : s.outq.length ≤ s.cfg.val.outDepth
  /-- 10 R26. -/
  outq_frames : ∀ f ∈ s.outq, 8 ≤ f.length ∧ f.length ≤ 511
  /-- 10 R27. -/
  batchq_fits : s.batchq.length ≤ s.cfg.val.batchDepth
  /-- 10 R27, R35. -/
  batchq_legal : ∀ b ∈ s.batchq, b.Legal
  /-- A queued batch came out of one buffer (42 R141). -/
  batchq_bounded : ∀ b ∈ s.batchq, b.inputSize ≤ s.cfg.val.bufCap
  /-- 10 R28: 0 to 4, or 7. -/
  lastClass_legal : s.lastClass.toNat ≤ 4 ∨ s.lastClass = 7#3
  /-- 10 R29: 0x00 to 0x03, or 0xFF. -/
  lastFlush_legal : s.lastFlush.toNat ≤ 3 ∨ s.lastFlush = 0xFF#8

/-- A DELIVER is not refused with Busy (42 R143): neither FIFO is full. -/
abbrev State.HasRoom (s : State) : Prop :=
  s.outq.length ≠ s.cfg.val.outDepth ∧ s.batchq.length ≠ s.cfg.val.batchDepth

/-- The outbound frames a notification f calls for (44_dispatcher_and_control.md R200 to R202, R204), by the event code at
its bytes 8 and 9: start inventory, abort inventory, or none. -/
def triggerFrames (c : Cfg) (f : List Byte) : List (List Byte) :=
  match f.drop 8 with
  | h :: l :: _ =>
    if be16 h l = c.ntfTrigPushed then [hdrDown c ++ c.catalog.getD c.nInit []]
    else if be16 h l = c.ntfTrigReleased then [hdrDown c ++ c.catalog.getD (c.nInit + 1) []]
    else []
  | _ => []

/-- The state after a sequence of deliveries, each taken by a DELIVER; none if one of them stops the machine. -/
def State.afterDeliveries : List (List Byte) → State → Option State
  | [], s => some s
  | f :: fs, s =>
    match exec (.deliver f) s with
    | .next t => State.afterDeliveries fs t
    | .fault _ => none
    | .refused _ => none

end Sys2Proof.Machine
end

