-- ==== Sys2Proof/Certificates/Slice0/Obligations.lean ====
section
/-! DEFINITION. The statements about the block, from the numbered rules of spec/. -/

open Sys2Proof Sys2Proof.Machine

/-! ### Requests: encoding, decoding, one step -/

/-- 30 R78 to R80: decoding the encoding of a well-formed request gives the request, with every operand, and the bytes
after it. -/
def Obligations.DecodeInvertsEncode : Prop :=
  ∀ (i : Instr) (rest : List Byte), i.wf = true → decode (encode i ++ rest) = .request i rest

/-- 30 R78 to R81: the decoder accepts nothing but encodings of well-formed requests. -/
def Obligations.DecodeReadsOnlyEncodings : Prop :=
  ∀ (bytes rest : List Byte) (i : Instr), decode bytes = .request i rest → i.wf = true ∧ bytes = encode i ++ rest

/-- 30 R80 and opcode_table.json: a header and its argument are read as a request exactly when some row of the table
covers the header, and then as that row's request, with that header and that argument; under no row they are illegal, and
the bytes after the argument are left (30 R81). The argument has the length `argCount` gives; that a CATALOG header with
RSV ≠ 000, which no row covers, has none is the model's reading (log 6). -/
def Obligations.DecodeFollowsOpcodeTable : Prop :=
  ∀ (h : BitVec 16) (arg rest : List Byte), arg.length = argCount h →
    (∀ r ∈ opcodeTable, r.covers h = true →
      ∃ i : Instr, decode (headerBytes h ++ arg ++ rest) = .request i rest
        ∧ i.row = r ∧ i.header = h ∧ i.argument = arg) ∧
    ((∀ r ∈ opcodeTable, r.covers h = false) →
      ∃ why, decode (headerBytes h ++ arg ++ rest) = .illegal why rest)

/-- 30 R78, R80: request headers written out from the encoding, one or more of each family, decode to their requests;
0x0001 (NOP with N = 1) and 0x1200 (ENCODE with RSV = 001) to none. How a table word lies at the port is the model's
reading (log 10). -/
def Obligations.SampleWordsDecode : Prop :=
  decodeTableWord 16 0b0000000000000000 = some .nop
    ∧ decodeTableWord 16 0b0001000000000010 = some (.encode [0, 0])
    ∧ decodeTableWord 16 0b0011000000000001 = some (.classify [0])
    ∧ decodeTableWord 16 0b0101000100000011 = some (.catalog 259)
    ∧ decodeTableWord 16 0b0111000000000011 = some (.deliver [0, 0, 0])
    ∧ decodeTableWord 16 0b1001000000000000 = some (.visualid [])
    ∧ decodeTableWord 16 0b1101000000000000 = some .sessionReset
    ∧ decodeTableWord 16 0b1110101000000001 = some (.reservedE 5 [0])
    ∧ decodeTableWord 16 0b0000000000000001 = none
    ∧ decodeTableWord 16 0b0001001000000000 = none

/-- 60 R234, 20 R59: a step runs the request at the head of the port, in the state whose port holds the bytes after it. -/
def Obligations.StepRunsDecodedRequest : Prop :=
  ∀ (s : State) (i : Instr) (rest : List Byte), decode s.rx = .request i rest →
    step s = exec i { s with rx := rest }

/-- The model's choice (log 5): without a whole request at the port (30 R78) a step changes nothing. -/
def Obligations.StepWaitsForWholeRequest : Prop :=
  ∀ (s : State),
    (s.rx.length < 2 ∨
      ∃ (h : BitVec 16) (body : List Byte), s.rx = headerBytes h ++ body ∧ body.length < argCount h) →
    step s = .next s

/-- 30 R81: a request with a reserved OP, a non-zero RSV, or a non-zero N where none is allowed is consumed with its
argument and answered IllegalOp, whatever the state, and changes no state. Its argument is N bytes; that a CATALOG header
with RSV ≠ 000 has none is the model's reading (log 6). -/
def Obligations.IllegalRequestsAnswerIllegalOp : Prop :=
  ∀ (h : BitVec 16) (arg rest : List Byte) (s : State),
    arg.length = (if headerOp h = 0x5#4 then 0 else (headerN h).toNat) →
    s.rx = headerBytes h ++ arg ++ rest →
    ((headerOp h = 0xE#4 ∨ headerOp h = 0xF#4)
      ∨ headerRsv h ≠ 0#3
      ∨ (headerOp h ∈ [0x0#4, 0x6#4, 0xA#4, 0xB#4, 0xC#4, 0xD#4] ∧ headerN h ≠ 0#9)) →
    step s = .next { s with rx := rest, response := some ⟨.illegalOp, []⟩ }

/-- 60 R236, R237: no request and no step ends in a fault or a refusal; after any of them there is a next state.
That no case stops the block is the model's reading (log 7, log 8). -/
def Obligations.EveryRequestCompletes : Prop :=
  (∀ (i : Instr) (s : State), ∃ t, exec i s = .next t) ∧ (∀ s : State, ∃ t, step s = .next t)

/-- 20 R59: a step takes one whole request off the port and leaves the bytes after it. -/
def Obligations.StepTakesOneRequest : Prop :=
  ∀ (s t : State) (i : Instr) (rest : List Byte), decode s.rx = .request i rest → step s = .next t → t.rx = rest

/-- 20 R55, R59: bytes that arrive behind a whole request change nothing about it; they are at the port afterwards.
The port is the model's own field (log 3); where an illegal CATALOG request ends is its reading (log 6). -/
def Obligations.ArrivalsDoNotDisturbRequest : Prop :=
  ∀ (s t : State) (more : List Byte), decode s.rx ≠ .incomplete → step s = .next t →
    step (s.receive more) = .next (t.receive more)

/-! ### Frame codec -/

/-- 40 R100, 30 R72: ENCODE is OP 0x1 with N = the command's length; it answers the header template, byte 2 always 0x0A,
followed by the command, and changes nothing. -/
def Obligations.EncodeBuildsFrame : Prop :=
  ∀ (s : State) (cmd : List Byte),
    encode (.encode cmd) = headerBytes (headerOf 0x1#4 0#3 (BitVec.ofNat 9 cmd.length)) ++ cmd ∧
    exec (.encode cmd) s = .next { s with
      response := some ⟨.ok,
        [s.cfg.val.prefixByte, s.cfg.val.conn, 0x0A#8, s.cfg.val.destRfid, s.cfg.val.reservedByte, s.cfg.val.dirDown,
          0x00#8, 0x00#8] ++ cmd⟩ }

/-- 40 R101: DECODE is OP 0x2 with N = the frame's length; below 8 bytes it answers TruncatedFrame with no data, otherwise
byte 3, then the bytes from 8 on. -/
def Obligations.DecodeSplitsFrame : Prop :=
  ∀ (s : State) (f : List Byte),
    encode (.decode f) = headerBytes (headerOf 0x2#4 0#3 (BitVec.ofNat 9 f.length)) ++ f ∧
    (f.length < 8 → exec (.decode f) s = .next { s with response := some ⟨.truncatedFrame, []⟩ }) ∧
    (∀ h : 8 ≤ f.length, exec (.decode f) s = .next { s with response := some ⟨.ok, f[3] :: f.drop 8⟩ })

/-- 30 R86, 40 R104: CLASSIFY is OP 0x3 with N = the frame's length; it answers the class code of the table of R86, one
condition a row, and changes nothing. -/
def Obligations.ClassifyFollowsClassTable : Prop :=
  ∀ (s : State) (f : List Byte), ∃ code : Nat,
    encode (.classify f) = headerBytes (headerOf 0x3#4 0#3 (BitVec.ofNat 9 f.length)) ++ f ∧
    exec (.classify f) s = .next { s with response := some ⟨.ok, [BitVec.ofNat 8 code]⟩ } ∧
    (code = 0 ↔ 8 ≤ f.length ∧ f[3]? = some s.cfg.val.destNotif) ∧
    (code = 1 ↔ 10 ≤ f.length ∧ f[3]? = some s.cfg.val.destRfid ∧
      ∃ h l, f[8]? = some h ∧ f[9]? = some l ∧ be16 h l = s.cfg.val.evtCmd) ∧
    (code = 2 ↔ 10 ≤ f.length ∧ f[3]? = some s.cfg.val.destRfid ∧
      ∃ h l, f[8]? = some h ∧ f[9]? = some l ∧ be16 h l = s.cfg.val.evtTagRead) ∧
    (code = 3 ↔ 8 ≤ f.length ∧ f[3]? = some s.cfg.val.destRfid ∧ code ≠ 1 ∧ code ≠ 2) ∧
    (code = 4 ↔ ¬ (8 ≤ f.length ∧ (f[3]? = some s.cfg.val.destNotif ∨ f[3]? = some s.cfg.val.destRfid))) ∧
    code ≤ 4

/-- 30 R71, 40 R104: the class of a frame depends on its length and on bytes 3, 8 and 9 alone, so two frames that agree
there get the same answer from CLASSIFY. -/
def Obligations.ClassifyReadsThreeBytes : Prop :=
  ∀ (s : State) (f g : List Byte), f.length = g.length → f[3]? = g[3]? → f[8]? = g[8]? → f[9]? = g[9]? →
    ∃ t, exec (.classify f) s = .next t ∧ exec (.classify g) s = .next t

/-- 40 R106, R105: EVENT is OP 0x4 with N = the payload's length; it answers the first two bytes of the payload, or
TruncatedFrame below two bytes. -/
def Obligations.EventReadsCode : Prop :=
  ∀ (s : State) (p : List Byte),
    encode (.event p) = headerBytes (headerOf 0x4#4 0#3 (BitVec.ofNat 9 p.length)) ++ p ∧
    (p.length < 2 → exec (.event p) s = .next { s with response := some ⟨.truncatedFrame, []⟩ }) ∧
    (∀ h : 2 ≤ p.length, exec (.event p) s = .next { s with response := some ⟨.ok, [p[0], p[1]]⟩ })

/-- 40 R107: DECODE of what ENCODE answered gives back the RFID destination and the command. -/
def Obligations.EncodeDecodeRecoversCommand : Prop :=
  ∀ (s : State) (cmd : List Byte), cmd.length ≤ 503 →
    ∃ t u frame, exec (.encode cmd) s = .next t ∧ t.response = some ⟨.ok, frame⟩ ∧
      (Instr.decode frame).wf = true ∧
      exec (.decode frame) t = .next u ∧ u.response = some ⟨.ok, s.cfg.val.destRfid :: cmd⟩

/-- 40 R108: the frame ENCODE answers is an RFID frame, classified by the first two command bytes. -/
def Obligations.EncodedFramesClassifyByCommand : Prop :=
  ∀ (s : State) (cmd : List Byte),
    ∃ t frame, exec (.encode cmd) s = .next t ∧ t.response = some ⟨.ok, frame⟩ ∧
      (cmd.length < 2 → classify s.cfg.val frame = .rfidOther) ∧
      (∀ h l tl, cmd = h :: l :: tl →
        classify s.cfg.val frame =
          if be16 h l = s.cfg.val.evtTagRead then .rfidTagRead
          else if be16 h l = s.cfg.val.evtCmd then .rfidCommandAck
          else .rfidOther)

/-! ### Command catalog and configuration -/

/-- 00 R9: the model refuses exactly the configurations that break a constraint; the last four parameters have their
decided defaults, and every state's configuration meets the constraints. -/
def Obligations.ConfigurationCheckRefusesIllFormed : Prop :=
  (∀ c : Cfg, Config.ofCfg c = none ↔
    ¬ (c.destRfid ≠ c.destNotif ∧ c.evtCmd ≠ c.evtTagRead ∧ c.ntfTrigPushed ≠ c.ntfTrigReleased
      ∧ c.nInit ≤ c.outDepth ∧ c.catalog.length = c.nInit + 2 ∧ (∀ e ∈ c.catalog, e.length ≤ 503)
      ∧ c.flushSkip ≤ c.bufCap ∧ 511 ≤ c.bufCap ∧ c.bufCap ≤ 4096
      ∧ max 1 c.nInit ≤ c.outDepth ∧ c.outDepth ≤ 255 ∧ 1 ≤ c.batchDepth ∧ c.batchDepth ≤ 255)) ∧
  (∀ (b0 b1 b2 b3 b4 b5 : Byte) (e0 e1 e2 e3 : BitVec 16) (n : Nat) (entries : List (List Byte)),
    ({ prefixByte := b0, conn := b1, reservedByte := b2, dirDown := b3, destRfid := b4, destNotif := b5, evtCmd := e0,
       evtTagRead := e1, ntfTrigPushed := e2, ntfTrigReleased := e3, nInit := n, catalog := entries } : Cfg)
      = ⟨b0, b1, b2, b3, b4, b5, e0, e1, e2, e3, n, entries, 10, 4096, 16, 8⟩) ∧
  (∀ s : State, Config.ofCfg s.cfg.val = some s.cfg)

/-- 41 R122: CATALOG is OP 0x5 with N = k and no argument bytes; it answers entry k for k ≤ N_INIT + 1, and BadIndex with
no data above. -/
def Obligations.CatalogReadsEntry : Prop :=
  ∀ (s : State) (k : BitVec 9),
    encode (.catalog k) = headerBytes (headerOf 0x5#4 0#3 k) ∧
    (k.toNat ≤ s.cfg.val.nInit + 1 →
      ∃ entry, s.cfg.val.catalog[k.toNat]? = some entry ∧
        exec (.catalog k) s = .next { s with response := some ⟨.ok, entry⟩ }) ∧
    (s.cfg.val.nInit + 2 ≤ k.toNat → exec (.catalog k) s = .next { s with response := some ⟨.badIndex, []⟩ })

/-- 41 R123: INIT, OP 0x6 with N = 0, pushes the first N_INIT catalog entries, framed, in index order, and answers OK; when OUTQ has fewer
than N_INIT free entries it pushes nothing and answers Busy. -/
def Obligations.InitQueuesWholeSequence : Prop :=
  ∀ s : State,
    encode .init = headerBytes (headerOf 0x6#4 0#3 0#9) ∧
    ((s.cfg.val.outDepth : Int) - s.outq.length ≥ s.cfg.val.nInit →
      exec .init s = .next { s with
        outq := s.outq ++ (s.cfg.val.catalog.take s.cfg.val.nInit).map (fun cmd => hdrDown s.cfg.val ++ cmd)
        response := some ⟨.ok, []⟩ }) ∧
    ((s.cfg.val.outDepth : Int) - s.outq.length < s.cfg.val.nInit →
      exec .init s = .next { s with response := some ⟨.busy, []⟩ })

/-- 20 R64, 70 R260: no step changes the configuration or the catalog. -/
def Obligations.StepKeepsConfiguration : Prop :=
  ∀ s t : State, step s = .next t → t.cfg = s.cfg

/-! ### Stream reassembler and dispatcher -/

/-- 42 R143: DELIVER is refused with Busy when either FIFO is full, whatever the delivery, and changes nothing. -/
def Obligations.DeliverBusyChangesNothing : Prop :=
  ∀ (s : State) (f : List Byte),
    (s.outq.length = s.cfg.val.outDepth ∨ s.batchq.length = s.cfg.val.batchDepth) →
    exec (.deliver f) s = .next { s with response := some ⟨.busy, []⟩ }

/-- 42 R142, R140: a classified delivery in Idle flushes nothing; it does its class action and sets LAST_CLASS. `frames`
is what the dispatcher emits (44 R200), none unless the delivery is a notification. -/
def Obligations.DeliverFrameWhenIdle : Prop :=
  ∀ (s : State) (f : List Byte) (c : FrameClass), s.HasRoom → classify s.cfg.val f = c → c ≠ .unclassified → s.buf = [] →
    let frames : List (List Byte) := if c = .notification then triggerFrames s.cfg.val f else []
    exec (.deliver f) s = .next { s with
      buf := if c = .rfidTagRead then f else []
      outq := s.outq ++ frames
      ackCount := if c = .rfidCommandAck then s.ackCount + 1#16 else s.ackCount
      lastClass := c.code
      response := some ⟨.ok, [BitVec.ofNat 8 (c.code.toNat + 16 * frames.length)]⟩ }

/-- 42 R142, R140, R141: a classified delivery in Accumulating first flushes: the buffer without its first FLUSH_SKIP
bytes is extracted, the batch is pushed, LAST_FLUSH and DISCARD_COUNT follow it, the buffer is cleared; then comes the
class action as in Idle. -/
def Obligations.DeliverFrameWhenAccumulating : Prop :=
  ∀ (s : State) (f : List Byte) (c : FrameClass), s.HasRoom → classify s.cfg.val f = c → c ≠ .unclassified → s.buf ≠ [] →
    let batch : Batch := extractBatch (s.buf.drop s.cfg.val.flushSkip)
    let frames : List (List Byte) := if c = .notification then triggerFrames s.cfg.val f else []
    exec (.deliver f) s = .next { s with
      buf := if c = .rfidTagRead then f else []
      outq := s.outq ++ frames
      batchq := s.batchq ++ [batch]
      lastFlush := batch.status.code
      discardCount := if batch.status = .ok then s.discardCount else s.discardCount + 1#16
      ackCount := if c = .rfidCommandAck then s.ackCount + 1#16 else s.ackCount
      lastClass := c.code
      response := some ⟨.ok, [BitVec.ofNat 8 (c.code.toNat + 8 + 16 * frames.length)]⟩ }

/-- 42 R147, R148: an unclassified chunk that fits is appended, in Idle too; one that does not fit is dropped with the
partial batch, and a BufferOverflow entry without records is pushed. -/
def Obligations.DeliverChunkEffect : Prop :=
  ∀ (s : State) (f : List Byte), s.HasRoom → classify s.cfg.val f = .unclassified →
    (s.buf.length + f.length ≤ s.cfg.val.bufCap →
      exec (.deliver f) s = .next { s with
        buf := s.buf ++ f
        lastClass := 4#3
        response := some ⟨.ok, [0x04#8]⟩ }) ∧
    (s.cfg.val.bufCap < s.buf.length + f.length →
      exec (.deliver f) s = .next { s with
        buf := []
        batchq := s.batchq ++ [⟨.bufferOverflow, []⟩]
        lastFlush := 0x03#8
        discardCount := s.discardCount + 1#16
        lastClass := 4#3
        response := some ⟨.ok, [0x0C#8]⟩ })

/-- 44 R201, R202: a notification whose event code is a trigger pushes exactly one frame, start or abort inventory, after
the flush of the bytes buffered. -/
def Obligations.TriggersEmitTheirCommand : Prop :=
  ∀ (s : State) (f : List Byte) (h l : Byte), s.HasRoom →
    f[3]? = some s.cfg.val.destNotif → f[8]? = some h → f[9]? = some l →
    (be16 h l = s.cfg.val.ntfTrigPushed →
      ∃ t start, exec (.deliver f) s = .next t ∧ s.cfg.val.catalog[s.cfg.val.nInit]? = some start ∧
        t.outq = s.outq ++ [hdrDown s.cfg.val ++ start] ∧ t.buf = [] ∧
        (s.buf ≠ [] → t.batchq = s.batchq ++ [extractBatch (s.buf.drop s.cfg.val.flushSkip)])) ∧
    (be16 h l = s.cfg.val.ntfTrigReleased →
      ∃ t abort, exec (.deliver f) s = .next t ∧ s.cfg.val.catalog[s.cfg.val.nInit + 1]? = some abort ∧
        t.outq = s.outq ++ [hdrDown s.cfg.val ++ abort] ∧ t.buf = [] ∧
        (s.buf ≠ [] → t.batchq = s.batchq ++ [extractBatch (s.buf.drop s.cfg.val.flushSkip)]))

/-- 44 R204: a notification with another event code, or with none, pushes nothing to OUTQ; it still flushes, and it still
sets LAST_CLASS to 0. -/
def Obligations.OtherNotificationsOnlyFlush : Prop :=
  ∀ (s : State) (f : List Byte), s.HasRoom → 8 ≤ f.length → f[3]? = some s.cfg.val.destNotif →
    (∀ h l, f[8]? = some h → f[9]? = some l →
      be16 h l ≠ s.cfg.val.ntfTrigPushed ∧ be16 h l ≠ s.cfg.val.ntfTrigReleased) →
    ∃ t, exec (.deliver f) s = .next t ∧ t.outq = s.outq ∧ t.buf = [] ∧ t.lastClass = 0#3 ∧
      t.batchq = s.batchq ++ (if s.buf = [] then [] else [extractBatch (s.buf.drop s.cfg.val.flushSkip)])

/-- 44 R203: an acknowledgment increments ACK_COUNT, modulo 2^16, and does nothing else beyond the flush: but for
ACK_COUNT, LAST_CLASS and the response, the state is the one after the flush. -/
def Obligations.AcknowledgmentOnlyCounts : Prop :=
  ∀ (s : State) (f : List Byte) (h l : Byte), s.HasRoom →
    f[3]? = some s.cfg.val.destRfid → f[8]? = some h → f[9]? = some l → be16 h l = s.cfg.val.evtCmd →
    ∃ t, exec (.deliver f) s = .next t ∧ t.ackCount.toNat = (s.ackCount.toNat + 1) % 2 ^ 16 ∧ t.lastClass = 1#3 ∧
      t = { (flush s).2 with ackCount := t.ackCount, lastClass := t.lastClass, response := t.response } ∧
      t.outq = s.outq ∧ t.buf = [] ∧
      t.batchq = s.batchq ++ (if s.buf = [] then [] else [extractBatch (s.buf.drop s.cfg.val.flushSkip)])

/-- 42 R151: a delivery pushes at most one BATCHQ entry and at most one OUTQ frame, and removes none. -/
def Obligations.OneEntryPerDelivery : Prop :=
  ∀ (s : State) (f : List Byte), ∃ t, exec (.deliver f) s = .next t ∧
    (t.batchq = s.batchq ∨ ∃ b, t.batchq = s.batchq ++ [b]) ∧
    (t.outq = s.outq ∨ ∃ frame, t.outq = s.outq ++ [frame])

/-- 42 R149: the buffer is empty after every flush and after every overflow; so a delivery that pushes a batch result
leaves nothing of the old buffer: the buffer is empty, or it holds the new tag-read frame and nothing else. A failed batch
leaves its error entry only, without records. -/
def Obligations.NoPartialStateAfterFlush : Prop :=
  (∀ s : State, (flush s).2.buf = [] ∧ (overflow s).2.buf = []) ∧
  ∀ (s : State) (f : List Byte), ∃ t, exec (.deliver f) s = .next t ∧
    (t.batchq ≠ s.batchq →
      (t.buf = [] ∨ (classify s.cfg.val f = .rfidTagRead ∧ t.buf = f)) ∧
      ∃ b, t.batchq = s.batchq ++ [b] ∧ (b.status ≠ .ok → b.records = []))

/-- 60 R233, 10 R29, R31: a delivery writes LAST_FLUSH and DISCARD_COUNT exactly with the batch result it pushes: the
status code, and one more discard for an error; an error result has no records. -/
def Obligations.DeliveryRecordsBatchResult : Prop :=
  ∀ (s : State) (f : List Byte), ∃ t, exec (.deliver f) s = .next t ∧
    ((t.batchq = s.batchq ∧ t.lastFlush = s.lastFlush ∧ t.discardCount = s.discardCount) ∨
      ∃ b, t.batchq = s.batchq ++ [b] ∧ t.lastFlush = b.status.code ∧
        t.discardCount = s.discardCount + (if b.status = .ok then 0#16 else 1#16) ∧
        (b.status ≠ .ok → b.records = []))

/-- 42 R145, R147, R150: reassembly. From Idle, a tag-read frame and then any unclassified chunks that fit the buffer leave
exactly their concatenation in the buffer and push nothing; the next classified delivery pushes the batch extracted from
that concatenation without its first FLUSH_SKIP bytes, wherever the transport split it. -/
def Obligations.ReassemblyIsConcatenation : Prop :=
  ∀ (s : State) (frame : List Byte) (chunks : List (List Byte)) (boundary : List Byte),
    s.HasRoom → s.buf = [] → classify s.cfg.val frame = .rfidTagRead →
    (∀ c ∈ chunks, classify s.cfg.val c = .unclassified) →
    (frame ++ chunks.flatten).length ≤ s.cfg.val.bufCap →
    classify s.cfg.val boundary ≠ .unclassified →
    ∃ t u, s.afterDeliveries (frame :: chunks) = some t ∧ t.buf = frame ++ chunks.flatten ∧
      t.batchq = s.batchq ∧ t.outq = s.outq ∧
      exec (.deliver boundary) t = .next u ∧
      u.batchq = s.batchq ++ [extractBatch ((frame ++ chunks.flatten).drop s.cfg.val.flushSkip)]

/-! ### Tag record extractor -/

/-- 43 R170 to R175: the extraction loop, one round at a time: no input is an OK batch; one byte, a zero product code, or
fewer than L + 1 bytes after the product code fails the batch; otherwise the record comes first and the rest of the input
decides the batch, which keeps no record when it fails. -/
def Obligations.ExtractionRound : Prop :=
  extractBatch [] = ⟨.ok, []⟩ ∧
  (∀ b : Byte, extractBatch [b] = ⟨.truncatedFrame, []⟩) ∧
  (∀ (h l : Byte) (body : List Byte), be16 h l = 0#16 → extractBatch (h :: l :: body) = ⟨.invalidProductCode, []⟩) ∧
  (∀ (h l : Byte) (body : List Byte), be16 h l ≠ 0#16 → body.length < ((be16 h l).toNat / 2 ^ 11) * 2 + 1 →
    extractBatch (h :: l :: body) = ⟨.truncatedFrame, []⟩) ∧
  (∀ (h l rssi : Byte) (id rest : List Byte), be16 h l ≠ 0#16 → id.length = ((be16 h l).toNat / 2 ^ 11) * 2 →
    extractBatch (h :: l :: (id ++ rssi :: rest)) =
      if (extractBatch rest).status = .ok then
        ⟨.ok, ⟨be16 h l, id, rssi, (visualId id).1, (visualId id).2⟩ :: (extractBatch rest).records⟩
      else ⟨(extractBatch rest).status, []⟩)

/-- 43 R177, 30 R83: EXTRACT is OP 0x8 with N = the body's length; it answers the batch's own status and the batch image,
whatever the status, and changes nothing. -/
def Obligations.ExtractAnswersBatch : Prop :=
  ∀ (s : State) (b : List Byte),
    encode (.extract b) = headerBytes (headerOf 0x8#4 0#3 (BitVec.ofNat 9 b.length)) ++ b ∧
    exec (.extract b) s = .next { s with
      response := some ⟨(extractBatch b).status,
        [(extractBatch b).status.code] ++ bytesBe (extractBatch b).records.length 2
          ++ (extractBatch b).records.flatMap TagRecord.image⟩ }

/-- 43 R172 to R176, R180, 10 R27, R35: whatever the input, the batch is legal, its identifiers have even length at most
62, and there are at most a third as many records as input bytes. -/
def Obligations.ExtractedBatchesLegal : Prop :=
  ∀ input : List Byte, (extractBatch input).Legal ∧ (extractBatch input).status ≠ .bufferOverflow ∧
    (∀ r ∈ (extractBatch input).records, r.id.length ≤ 62 ∧ r.id.length % 2 = 0) ∧
    3 * (extractBatch input).records.length ≤ input.length

/-- 43 R174, R170: an OK batch accounts for every input byte once and in order: the input is the records' product codes,
identifiers and signal-strength bytes, one after another. -/
def Obligations.ExtractionLosesNoByte : Prop :=
  ∀ input : List Byte, (extractBatch input).status = .ok →
    input = (extractBatch input).records.flatMap
      (fun r => [r.pc.extractLsb' 8 8, r.pc.extractLsb' 0 8] ++ r.id ++ [r.rssi])

/-- 43 R181: two bodies that extract OK extract OK one after the other, with the records of both in order. The converse
fails: some body that extracts OK can be split where the first part does not. -/
def Obligations.ExtractionConcatenates : Prop :=
  (∀ a b : List Byte, (extractBatch a).status = .ok → (extractBatch b).status = .ok →
    extractBatch (a ++ b) = ⟨.ok, (extractBatch a).records ++ (extractBatch b).records⟩) ∧
  ∃ a b : List Byte, (extractBatch (a ++ b)).status = .ok ∧ (extractBatch a).status ≠ .ok

/-- 70 R266: two zero bytes at a record boundary fail the whole batch with InvalidProductCode; a single trailing byte of
any value fails it with TruncatedFrame; every record is lost. -/
def Obligations.TrailingPaddingFailsBatch : Prop :=
  ∀ body : List Byte, (extractBatch body).status = .ok →
    (∀ rest, extractBatch (body ++ 0x00#8 :: 0x00#8 :: rest) = ⟨.invalidProductCode, []⟩) ∧
    (∀ b, extractBatch (body ++ [b]) = ⟨.truncatedFrame, []⟩)

/-- 43 R178: VISUALID, OP 0x9 with N = the identifier's length, answers vid_valid 1 and the identifier bytes 10 down to 3, the big-endian image of their
reversed value, or nine zero bytes for an identifier below 11 bytes, and changes nothing. -/
def Obligations.VisualIdReversesBytes : Prop :=
  ∀ (s : State) (id : List Byte),
    encode (.visualid id) = headerBytes (headerOf 0x9#4 0#3 (BitVec.ofNat 9 id.length)) ++ id ∧
    (id.length < 11 →
      exec (.visualid id) s = .next { s with response := some ⟨.ok, List.replicate 9 0x00#8⟩ }) ∧
    (∀ h : 11 ≤ id.length,
      exec (.visualid id) s = .next { s with
        response := some ⟨.ok, [0x01#8, id[10], id[9], id[8], id[7], id[6], id[5], id[4], id[3]]⟩ })

/-- 43 R176: the visual ID is the little-endian value of identifier bytes 3 to 10, and the big-endian value of the same
bytes reversed; below 11 bytes there is none. -/
def Obligations.VisualIdIsLittleEndian : Prop :=
  (∀ id : List Byte, id.length < 11 → visualId id = (false, 0#64)) ∧
  ∀ (id : List Byte) (_ : 11 ≤ id.length),
    (visualId id).1 = true ∧ (visualId id).2.toNat = beNat ((id.drop 3).take 8).reverse ∧
    (visualId id).2.toNat = id[3].toNat + id[4].toNat * 256 + id[5].toNat * 256 ^ 2 + id[6].toNat * 256 ^ 3
      + id[7].toNat * 256 ^ 4 + id[8].toNat * 256 ^ 5 + id[9].toNat * 256 ^ 6 + id[10].toNat * 256 ^ 7

/-- 30 R83, R84: a record's image byte by byte, 13 + L bytes; a batch's image, 3 bytes when it has no records; and the
largest image of a batch out of a buffer of 4096 bytes, 17,748 bytes, which 1365 records without identifier reach. -/
def Obligations.RecordImageLayout : Prop :=
  (∀ r : TagRecord, r.id.length ≤ 62 →
    r.image = [r.pc.extractLsb' 8 8, r.pc.extractLsb' 0 8, BitVec.ofNat 8 r.id.length] ++ r.id
      ++ [r.rssi, if r.vidValid then 0x01#8 else 0x00#8]
      ++ [r.vid.extractLsb' 56 8, r.vid.extractLsb' 48 8, r.vid.extractLsb' 40 8, r.vid.extractLsb' 32 8,
          r.vid.extractLsb' 24 8, r.vid.extractLsb' 16 8, r.vid.extractLsb' 8 8, r.vid.extractLsb' 0 8] ∧
    r.image.length = 13 + r.id.length) ∧
  (∀ b : Batch, b.image = [b.status.code] ++ bytesBe b.records.length 2 ++ b.records.flatMap TagRecord.image) ∧
  (∀ k : Status, Batch.image ⟨k, []⟩ = [k.code, 0x00#8, 0x00#8]) ∧
  (∀ b : Batch, b.Legal → b.inputSize ≤ 4096 → b.image.length ≤ 17748) ∧
  (∀ b : Batch, b.records.length = 1365 → (∀ r ∈ b.records, r.id = []) → b.image.length = 17748)

/-- 92 D4 ("self-delimiting and lossless for every record field"), 30 R83, R84: two legal batches with the same image are
the same batch. -/
def Obligations.BatchImageLossless : Prop :=
  ∀ a b : Batch, a.Legal → b.Legal → a.records.length < 2 ^ 16 → b.records.length < 2 ^ 16 → a.image = b.image → a = b

/-! ### Output ports and control -/

/-- 44 R205: POP_OUT, OP 0xA with N = 0, removes and answers the head of OUTQ, or answers Empty. -/
def Obligations.PopOutTakesOldest : Prop :=
  ∀ s : State,
    encode .popOut = headerBytes (headerOf 0xA#4 0#3 0#9) ∧
    (s.outq = [] → exec .popOut s = .next { s with response := some ⟨.empty, []⟩ }) ∧
    (∀ frame rest, s.outq = frame :: rest →
      exec .popOut s = .next { s with outq := rest, response := some ⟨.ok, frame⟩ })

/-- 44 R206: POP_BATCH, OP 0xB with N = 0, removes the head of BATCHQ and answers its image with status OK, an error batch
too, or answers Empty. -/
def Obligations.PopBatchTakesOldest : Prop :=
  ∀ s : State,
    encode .popBatch = headerBytes (headerOf 0xB#4 0#3 0#9) ∧
    (s.batchq = [] → exec .popBatch s = .next { s with response := some ⟨.empty, []⟩ }) ∧
    (∀ b rest, s.batchq = b :: rest →
      exec .popBatch s = .next { s with batchq := rest, response := some ⟨.ok, b.image⟩ })

/-- 44 R207, 10 R32: STATUS, OP 0xC with N = 0, answers the ten bytes of the view, each field at its place and within its legal values in a
legal state, and changes nothing. -/
def Obligations.StatusShowsEveryField : Prop :=
  ∀ s : State, s.Inv →
    ∃ b0 : Byte, encode .status = headerBytes (headerOf 0xC#4 0#3 0#9) ∧
      exec .status s = .next { s with
        response := some ⟨.ok,
          [b0, s.lastFlush, BitVec.ofNat 8 (s.buf.length / 256), BitVec.ofNat 8 (s.buf.length % 256),
            BitVec.ofNat 8 s.outq.length, BitVec.ofNat 8 s.batchq.length,
            s.ackCount.extractLsb' 8 8, s.ackCount.extractLsb' 0 8,
            s.discardCount.extractLsb' 8 8, s.discardCount.extractLsb' 0 8]⟩ } ∧
      b0.toNat = 2 * s.lastClass.toNat + (if s.buf = [] then 0 else 1) ∧
      (s.lastClass.toNat ≤ 4 ∨ s.lastClass.toNat = 7) ∧ (s.lastFlush.toNat ≤ 3 ∨ s.lastFlush.toNat = 255) ∧
      s.buf.length < 2 ^ 16 ∧ s.outq.length < 2 ^ 8 ∧ s.batchq.length < 2 ^ 8

/-- 44 R208: SESSION_RESET, OP 0xD with N = 0, drops the partial batch and clears the status fields; OUTQ and BATCHQ keep their entries. -/
def Obligations.SessionResetStartsNewSession : Prop :=
  ∀ s : State, encode .sessionReset = headerBytes (headerOf 0xD#4 0#3 0#9) ∧ exec .sessionReset s = .next { s with
    buf := [], lastClass := 7#3, lastFlush := 0xFF#8, ackCount := 0#16, discardCount := 0#16,
    response := some ⟨.ok, []⟩ }

/-- 44 R209: NOP, the request bytes 00 00, answers OK in every state and changes nothing. -/
def Obligations.NopAnswersOk : Prop :=
  ∀ s : State, encode .nop = [0x00#8, 0x00#8] ∧ exec .nop s = .next { s with response := some ⟨.ok, []⟩ }

/-- 44 R210: a request of a reserved opcode, whatever its RSV, is taken off the port with its N argument bytes, is
answered IllegalOp with no data, and changes no state. -/
def Obligations.ReservedOpcodesAnswerIllegalOp : Prop :=
  ∀ (s : State) (rsv : BitVec 3) (arg rest : List Byte),
    (exec (.reservedE rsv arg) s = .next { s with response := some ⟨.illegalOp, []⟩ } ∧
      exec (.reservedF rsv arg) s = .next { s with response := some ⟨.illegalOp, []⟩ }) ∧
    (∀ op : BitVec 4, op = 0xE#4 ∨ op = 0xF#4 → arg.length ≤ 511 →
      s.rx = headerBytes (headerOf op rsv (BitVec.ofNat 9 arg.length)) ++ arg ++ rest →
      step s = .next { s with rx := rest, response := some ⟨.illegalOp, []⟩ })

/-! ### The whole block -/

/-- 20 R56: NOP, ENCODE, DECODE, CLASSIFY, EVENT, CATALOG, EXTRACT, VISUALID and STATUS change nothing but the response,
and the same request again gives the same response. -/
def Obligations.PureRequestsAreIdempotent : Prop :=
  ∀ (i : Instr) (s : State),
    (match i with
      | .nop | .encode _ | .decode _ | .classify _ | .event _ | .catalog _ | .extract _ | .visualid _ | .status => True
      | .init | .deliver _ | .popOut | .popBatch | .sessionReset | .reservedE _ _ | .reservedF _ _ => False) →
    ∃ r, exec i s = .next { s with response := some r } ∧
      exec i { s with response := some r } = .next { s with response := some r }

/-- 60 R233, R236: a response whose status is not OK comes with no state change. -/
def Obligations.RequestErrorsChangeNothing : Prop :=
  ∀ (i : Instr) (s : State), ∃ t r, exec i s = .next t ∧ t.response = some r ∧
    (r.status ≠ .ok → t = { s with response := some r })

/-- 10 R24, R26 to R31, R33: which requests can change which element: BUF, LAST_CLASS, LAST_FLUSH, ACK_COUNT and
DISCARD_COUNT only DELIVER and SESSION_RESET; OUTQ only INIT, DELIVER and POP_OUT; BATCHQ only DELIVER and POP_BATCH; the
configuration and the port none. -/
def Obligations.OnlyTheseRequestsWrite : Prop :=
  ∀ (i : Instr) (s : State), ∃ t, exec i s = .next t ∧
    ((∀ f, i ≠ .deliver f) → i ≠ .sessionReset →
      t.buf = s.buf ∧ t.lastClass = s.lastClass ∧ t.lastFlush = s.lastFlush ∧ t.ackCount = s.ackCount ∧
        t.discardCount = s.discardCount) ∧
    ((∀ f, i ≠ .deliver f) → i ≠ .init → i ≠ .popOut → t.outq = s.outq) ∧
    ((∀ f, i ≠ .deliver f) → i ≠ .popBatch → t.batchq = s.batchq) ∧
    t.cfg = s.cfg ∧ t.rx = s.rx

/-- 30 R82, R84, 20 R55: in a legal state every well-formed request answers at most 17,748 data bytes, none with an error
status unless it is EXTRACT's; and the bytes the host reads are the status code, the length of the data as a 16-bit
big-endian number, which is exact, and the data. -/
def Obligations.ResponsesFitTheirLength : Prop :=
  ∀ (i : Instr) (s : State), s.Inv → i.wf = true →
    ∃ (t : State) (r : Response) (hi lo : Byte), exec i s = .next t ∧ t.response = some r ∧ r.data.length ≤ 17748 ∧
      (r.status ≠ .ok → (∀ b, i ≠ .extract b) → r.data = []) ∧
      r.image = r.status.code :: hi :: lo :: r.data ∧ (be16 hi lo).toNat = r.data.length ∧
      t.responseBytes = r.image

/-- 60 R230: the eight status codes, byte 0 of the image of every response and of every batch; no other code exists. -/
def Obligations.StatusCodesLeadEveryImage : Prop :=
  (Status.ok.code = 0x00#8 ∧ Status.truncatedFrame.code = 0x01#8 ∧ Status.invalidProductCode.code = 0x02#8
    ∧ Status.bufferOverflow.code = 0x03#8 ∧ Status.illegalOp.code = 0x04#8 ∧ Status.badIndex.code = 0x05#8
    ∧ Status.empty.code = 0x06#8 ∧ Status.busy.code = 0x07#8) ∧
  (∀ k : Status, k.code.toNat < 8) ∧
  (∀ r : Response, r.image.head? = some r.status.code) ∧
  (∀ b : Batch, b.image.head? = some b.status.code)

/-- 10 R23 to R29, R35: every step keeps a legal state legal. -/
def Obligations.StepKeepsLegalState : Prop :=
  ∀ s t : State, s.Inv → step s = .next t → t.Inv

/-- 70 R260: the state right after reset is legal. -/
def Obligations.ResetStateIsLegal : Prop := State.reset.Inv

/-- 70 R260: every element of the block's state at its reset value, right after reset and after the host resets a running
block, whose configuration stays. -/
def Obligations.ResetValues : Prop :=
  (State.reset.buf = [] ∧ State.reset.outq = [] ∧ State.reset.batchq = [] ∧ State.reset.lastClass = 7#3 ∧
    State.reset.lastFlush = 0xFF#8 ∧ State.reset.ackCount = 0#16 ∧ State.reset.discardCount = 0#16) ∧
  ∀ s : State, s.hostReset.buf = [] ∧ s.hostReset.outq = [] ∧ s.hostReset.batchq = [] ∧ s.hostReset.lastClass = 7#3 ∧
    s.hostReset.lastFlush = 0xFF#8 ∧ s.hostReset.ackCount = 0#16 ∧ s.hostReset.discardCount = 0#16 ∧
    s.hostReset.cfg = s.cfg

/-- 70 R261: on the block's own state, SESSION_RESET differs from reset in one way: it keeps OUTQ and BATCHQ. The port
and the response after a host reset are the model's choice (log 4, log 9). -/
def Obligations.SessionResetKeepsQueues : Prop :=
  ∀ s : State, ∃ t, exec .sessionReset s = .next t ∧ t.outq = s.outq ∧ t.batchq = s.batchq ∧
    s.hostReset = { t with outq := [], batchq := [], response := none }
end

