-- ==== Sys2Proof/Laws/Bytes.lean ====
section
/-! SUPPORT. What the byte-order helpers do: `bytesBe` and `beNat` are inverse, `be16` is the value of its two bytes. -/

namespace Sys2Proof.Machine

@[simp] theorem bytesBe_length (v n : Nat) : (bytesBe v n).length = n := by
  induction n with
  | zero => rfl
  | succ n ih => simp [bytesBe, ih]

theorem be16_toNat (h l : Byte) : (be16 h l).toNat = h.toNat * 256 + l.toNat := by
  rw [be16, BitVec.toNat_append, Nat.shiftLeft_eq, Nat.mul_comm, ← Nat.two_pow_add_eq_or_of_lt l.isLt, Nat.mul_comm]

/-- The two bytes of a 16-bit value, high byte first. -/
theorem bytesBe_two (v : BitVec 16) : bytesBe v.toNat 2 = [v.extractLsb' 8 8, v.extractLsb' 0 8] := by
  simp only [bytesBe, List.cons.injEq, and_true]
  constructor <;> apply BitVec.eq_of_toNat_eq <;> simp [Nat.shiftRight_eq_div_pow]

theorem be16_bytes (v : BitVec 16) : be16 (v.extractLsb' 8 8) (v.extractLsb' 0 8) = v := by
  apply BitVec.eq_of_toNat_eq
  rw [be16_toNat]
  simp only [BitVec.extractLsb'_toNat, Nat.shiftRight_eq_div_pow]
  omega

theorem bytes_be16 (h l : Byte) : (be16 h l).extractLsb' 8 8 = h ∧ (be16 h l).extractLsb' 0 8 = l := by
  constructor <;> apply BitVec.eq_of_toNat_eq <;>
    simp only [BitVec.extractLsb'_toNat, Nat.shiftRight_eq_div_pow, be16_toNat] <;> omega

theorem bytesBe_be16 (h l : Byte) : bytesBe (be16 h l).toNat 2 = [h, l] := by
  rw [bytesBe_two, (bytes_be16 h l).1, (bytes_be16 h l).2]

theorem beNat_append (s t : List Byte) : beNat (s ++ t) = beNat s * 256 ^ t.length + beNat t := by
  induction t using List.reverseRecOn with
  | nil => simp [beNat]
  | append_singleton t b ih =>
    have step (u : List Byte) : beNat (u ++ [b]) = beNat u * 256 + b.toNat := by simp [beNat]
    rw [← List.append_assoc, step, step, ih, List.length_append, List.length_singleton, pow_succ]
    ring

theorem beNat_lt (s : List Byte) : beNat s < 256 ^ s.length := by
  induction s using List.reverseRecOn with
  | nil => simp [beNat]
  | append_singleton s b ih =>
    rw [beNat_append, List.length_append, List.length_singleton, pow_succ]
    have := b.isLt
    simp only [beNat, List.foldl_cons, List.foldl_nil] at *
    omega

/-- Encoding the value of a byte string gives the byte string back. -/
theorem bytesBe_beNat (s : List Byte) : bytesBe (beNat s) s.length = s := by
  have key (p q : List Byte) : bytesBe (beNat (p ++ q)) q.length = q := by
    induction q generalizing p with
    | nil => rfl
    | cons b q ih =>
      have hq := ih (p ++ [b])
      rw [List.append_assoc, List.singleton_append] at hq
      rw [List.length_cons, bytesBe, hq]
      have hlt := beNat_lt q
      have hval : beNat (p ++ b :: q) / 256 ^ q.length = beNat p * 256 + b.toNat := by
        rw [show p ++ b :: q = (p ++ [b]) ++ q by simp, beNat_append (p ++ [b]) q,
          show beNat (p ++ [b]) = beNat p * 256 + b.toNat by simp [beNat]]
        rw [Nat.mul_comm, Nat.mul_add_div (by positivity), Nat.div_eq_of_lt hlt, Nat.add_zero]
      rw [hval]
      congr 1
      apply BitVec.eq_of_toNat_eq
      have := b.isLt
      simp only [BitVec.toNat_ofNat]
      omega
  simpa using key [] s

end Sys2Proof.Machine
end

