-- ==== Sys2Proof/Laws/Decode.lean ====
section
/-! SUPPORT. What the decoder and the header fields do: fields of a built header, and decoding as one equation and one
inversion. -/

namespace Sys2Proof

open Sys2Proof.Machine

@[simp] theorem headerOp_headerOf (op : BitVec 4) (rsv : BitVec 3) (n : BitVec 9) :
    headerOp (headerOf op rsv n) = op := by
  simp only [headerOp, headerOf]; ext i hi; simp; grind

@[simp] theorem headerRsv_headerOf (op : BitVec 4) (rsv : BitVec 3) (n : BitVec 9) :
    headerRsv (headerOf op rsv n) = rsv := by
  simp only [headerRsv, headerOf]; ext i hi; simp; grind

@[simp] theorem headerN_headerOf (op : BitVec 4) (rsv : BitVec 3) (n : BitVec 9) :
    headerN (headerOf op rsv n) = n := by
  simp only [headerN, headerOf]; ext i hi; simp; grind

/-- A header is its three fields. -/
theorem headerOf_fields (h : BitVec 16) : headerOf (headerOp h) (headerRsv h) (headerN h) = h := by
  simp only [headerOp, headerRsv, headerN, headerOf]
  ext i hi
  simp only [BitVec.getElem_append, BitVec.getElem_extractLsb']
  grind

/-- Masking a header masks its fields. -/
theorem headerOf_and (op op' : BitVec 4) (rsv rsv' : BitVec 3) (n n' : BitVec 9) :
    headerOf op rsv n &&& headerOf op' rsv' n' = headerOf (op &&& op') (rsv &&& rsv') (n &&& n') := by
  simp only [headerOf]
  ext i hi
  simp only [BitVec.getElem_and, BitVec.getElem_append]
  grind

theorem argCount_headerOf (op : BitVec 4) (rsv : BitVec 3) (n : BitVec 9) :
    argCount (headerOf op rsv n) = if op = 0x5#4 then 0 else n.toNat := by
  simp [argCount]

theorem countOf_toNat {arg : List Byte} (h : argFits arg = true) : (countOf arg).toNat = arg.length := by
  have : arg.length ≤ 511 := of_decide_eq_true h
  simp only [countOf, BitVec.toNat_ofNat]
  omega

/-- Decoding a header and its whole argument. -/
theorem decode_parts (h : BitVec 16) (arg rest : List Byte) (harg : arg.length = argCount h) :
    decode (headerBytes h ++ arg ++ rest) =
      match headerRequest h arg with
      | .ok i => .request i rest
      | .error why => .illegal why rest := by
  have hlen : ¬ (arg ++ rest).length < argCount h := by simp [harg]
  have htake : (arg ++ rest).take (argCount h) = arg := by rw [← harg, List.take_left]
  have hdrop : (arg ++ rest).drop (argCount h) = rest := by rw [← harg, List.drop_left]
  cases hq : headerRequest h arg <;>
    simp only [headerBytes, List.cons_append, List.nil_append, decode, be16_bytes, if_neg hlen, htake, hdrop, hq]

/-- What the bytes were when a request is read from them. -/
theorem decode_request {bytes rest : List Byte} {i : Instr} (h : decode bytes = .request i rest) :
    ∃ hd arg, bytes = headerBytes hd ++ arg ++ rest ∧ arg.length = argCount hd ∧ headerRequest hd arg = .ok i := by
  match bytes with
  | [] => simp [decode] at h
  | [_] => simp [decode] at h
  | b0 :: b1 :: body =>
    simp only [decode] at h
    split at h
    · cases h
    next hlen =>
      split at h
      · next j hj =>
        cases h
        refine ⟨be16 b0 b1, body.take (argCount (be16 b0 b1)), ?_, by simp; omega, hj⟩
        simp [headerBytes, (bytes_be16 b0 b1).1, (bytes_be16 b0 b1).2]
      · cases h

end Sys2Proof
end

