-- ==== Sys2Proof/Laws/Extractor.lean ====
section
/-! SUPPORT. What the extractor's functions do: reading one record, and the batch loop without its fuel. -/

namespace Sys2Proof.Machine

/-- The length field is bits 15:11, so a length is even and at most 62 (43 R173). -/
theorem idLength_eq (pc : BitVec 16) : idLength pc = pc.toNat / 2048 * 2 := by
  simp [idLength, pcLenShift, pcLenMult, Nat.shiftRight_eq_div_pow]

theorem idLength_le (pc : BitVec 16) : idLength pc ≤ 62 := by
  have := pc.isLt
  rw [idLength_eq]
  omega

/-- What was read when a record's body is read (43 R174). -/
theorem readBody_ok {pc : BitVec 16} {body rest : List Byte} {r : TagRecord} (h : readBody pc body = .ok (r, rest)) :
    ∃ id rssi, id.length = idLength pc ∧ body = id ++ rssi :: rest ∧ r = makeRecord pc id rssi := by
  simp only [readBody] at h
  split at h
  · cases h
  next rssi rest' hdrop =>
    cases h
    refine ⟨body.take (idLength pc), rssi, ?_, ?_, rfl⟩
    · have := congrArg List.length hdrop
      simp only [List.length_drop, List.length_cons] at this
      simp only [List.length_take]
      omega
    · rw [← hdrop, List.take_append_drop]

/-- Reading a body that starts with a whole identifier and a signal-strength byte (43 R174). -/
theorem readBody_append (pc : BitVec 16) (id : List Byte) (rssi : Byte) (rest : List Byte) (h : id.length = idLength pc) :
    readBody pc (id ++ rssi :: rest) = .ok (makeRecord pc id rssi, rest) := by
  simp [readBody, ← h]

/-- A body of at most L bytes is truncated (43 R174). -/
theorem readBody_short {pc : BitVec 16} {body : List Byte} (h : body.length < idLength pc + 1) :
    readBody pc body = .error .truncatedFrame := by
  simp [readBody, List.drop_eq_nil_of_le (Nat.lt_succ_iff.mp h)]

theorem readBody_error {pc : BitVec 16} {body : List Byte} {k : Status} (h : readBody pc body = .error k) :
    k = .truncatedFrame ∧ body.length < idLength pc + 1 := by
  simp only [readBody] at h
  split at h
  · next hdrop =>
    cases h
    exact ⟨rfl, by simpa [Nat.lt_succ_iff] using hdrop⟩
  · cases h

/-- What was read when a record is read (43 R170 to R174). -/
theorem readRecord_ok {input rest : List Byte} {r : TagRecord} (h : readRecord input = .ok (r, rest)) :
    ∃ b0 b1 id rssi, input = b0 :: b1 :: (id ++ rssi :: rest) ∧ be16 b0 b1 ≠ 0#16
      ∧ id.length = idLength (be16 b0 b1) ∧ r = makeRecord (be16 b0 b1) id rssi := by
  match input with
  | [] => simp [readRecord] at h
  | [_] => simp [readRecord] at h
  | b0 :: b1 :: body =>
    simp only [readRecord] at h
    split at h
    · cases h
    next hpc =>
      obtain ⟨id, rssi, hlen, hbody, hr⟩ := readBody_ok h
      exact ⟨b0, b1, id, rssi, by rw [hbody], hpc, hlen, hr⟩

/-- Why reading a record fails (43 R171, R172, R174). -/
theorem readRecord_error {input : List Byte} {k : Status} (h : readRecord input = .error k) :
    k = .truncatedFrame ∨ k = .invalidProductCode := by
  match input with
  | [] => simp [readRecord] at h; exact .inl h.symm
  | [_] => simp [readRecord] at h; exact .inl h.symm
  | b0 :: b1 :: body =>
    simp only [readRecord] at h
    split at h
    · cases h; exact .inr rfl
    · exact .inl (readBody_error h).1

/-- A record is at least three bytes (00 R10). -/
theorem readRecord_length {input rest : List Byte} {r : TagRecord} (h : readRecord input = .ok (r, rest)) :
    input.length = 3 + r.id.length + rest.length := by
  obtain ⟨b0, b1, id, rssi, rfl, -, -, rfl⟩ := readRecord_ok h
  simp [makeRecord]
  omega

/-- Put records in front of a batch; an error batch keeps none (43 R175). -/
def Batch.prepend (recs : List TagRecord) (b : Batch) : Batch :=
  if b.status = .ok then ⟨.ok, recs ++ b.records⟩ else ⟨b.status, []⟩

/-- Any fuel from the input's length on gives the same batch, and the records read before only come first. -/
theorem extractLoop_eq (fuel : Nat) (input : List Byte) (recs : List TagRecord) (h : input.length ≤ fuel) :
    extractLoop fuel input recs = (extractBatch input).prepend recs := by
  suffices H : ∀ n, ∀ input : List Byte, input.length ≤ n → ∀ fuel, input.length ≤ fuel → ∀ recs,
      extractLoop fuel input recs = (extractLoop n input []).prepend recs by
    exact H input.length input (le_refl _) fuel h recs
  intro n
  induction n with
  | zero =>
    intro input hn fuel _ recs
    rw [List.length_eq_zero_iff.mp (Nat.le_zero.mp hn)]
    cases fuel <;> simp [extractLoop, Batch.prepend]
  | succ n ih =>
    intro input hn fuel hfuel recs
    match input, fuel with
    | [], fuel => cases fuel <;> simp [extractLoop, Batch.prepend]
    | b :: tl, 0 => simp at hfuel
    | b :: tl, fuel + 1 =>
      simp only [extractLoop]
      cases hr : readRecord (b :: tl) with
      | error k =>
        rcases readRecord_error hr with rfl | rfl <;> simp [Batch.prepend]
      | ok p =>
        obtain ⟨r, rest⟩ := p
        have hlen := readRecord_length hr
        simp only [List.length_cons] at hlen hn hfuel
        simp only
        rw [ih rest (by omega) fuel (by omega) (recs ++ [r]), ih rest (by omega) n (by omega) ([] ++ [r])]
        by_cases hok : (extractLoop n rest []).status = .ok <;> simp [Batch.prepend, hok]

@[simp] theorem extractBatch_nil : extractBatch [] = ⟨.ok, []⟩ := rfl

/-- One round of the loop of 43 R170, without fuel. -/
theorem extractBatch_cons (b : Byte) (tl : List Byte) :
    extractBatch (b :: tl) =
      match readRecord (b :: tl) with
      | .error k => ⟨k, []⟩
      | .ok (r, rest) => (extractBatch rest).prepend [r] := by
  rw [extractBatch, List.length_cons, extractLoop]
  cases hr : readRecord (b :: tl) with
  | error k => rfl
  | ok p =>
    obtain ⟨r, rest⟩ := p
    have hlen := readRecord_length hr
    simp only [List.length_cons] at hlen
    simp only [List.nil_append]
    exact extractLoop_eq _ _ _ (by omega)

end Sys2Proof.Machine
end

