-- ==== Sys2Proof/Laws/State.lean ====
section
/-! SUPPORT. One lemma per field per update of the state, each true by unfolding the update once. -/

namespace Sys2Proof.Machine

@[simp] theorem State.buf_respond (st : Status) (data : List Byte) (s : State) : (s.respond st data).buf = s.buf := rfl
@[simp] theorem State.outq_respond (st : Status) (data : List Byte) (s : State) : (s.respond st data).outq = s.outq := rfl
@[simp] theorem State.batchq_respond (st : Status) (data : List Byte) (s : State) : (s.respond st data).batchq = s.batchq := rfl
@[simp] theorem State.lastClass_respond (st : Status) (data : List Byte) (s : State) : (s.respond st data).lastClass = s.lastClass := rfl
@[simp] theorem State.lastFlush_respond (st : Status) (data : List Byte) (s : State) : (s.respond st data).lastFlush = s.lastFlush := rfl
@[simp] theorem State.ackCount_respond (st : Status) (data : List Byte) (s : State) : (s.respond st data).ackCount = s.ackCount := rfl
@[simp] theorem State.discardCount_respond (st : Status) (data : List Byte) (s : State) : (s.respond st data).discardCount = s.discardCount := rfl
@[simp] theorem State.cfg_respond (st : Status) (data : List Byte) (s : State) : (s.respond st data).cfg = s.cfg := rfl
@[simp] theorem State.rx_respond (st : Status) (data : List Byte) (s : State) : (s.respond st data).rx = s.rx := rfl
@[simp] theorem State.response_respond (st : Status) (data : List Byte) (s : State) : (s.respond st data).response = some ⟨st, data⟩ := rfl

@[simp] theorem State.buf_raise (k : Status) (s : State) : (s.raise k).buf = s.buf := rfl
@[simp] theorem State.outq_raise (k : Status) (s : State) : (s.raise k).outq = s.outq := rfl
@[simp] theorem State.batchq_raise (k : Status) (s : State) : (s.raise k).batchq = s.batchq := rfl
@[simp] theorem State.lastClass_raise (k : Status) (s : State) : (s.raise k).lastClass = s.lastClass := rfl
@[simp] theorem State.lastFlush_raise (k : Status) (s : State) : (s.raise k).lastFlush = s.lastFlush := rfl
@[simp] theorem State.ackCount_raise (k : Status) (s : State) : (s.raise k).ackCount = s.ackCount := rfl
@[simp] theorem State.discardCount_raise (k : Status) (s : State) : (s.raise k).discardCount = s.discardCount := rfl
@[simp] theorem State.cfg_raise (k : Status) (s : State) : (s.raise k).cfg = s.cfg := rfl
@[simp] theorem State.rx_raise (k : Status) (s : State) : (s.raise k).rx = s.rx := rfl
@[simp] theorem State.response_raise (k : Status) (s : State) : (s.raise k).response = some ⟨k, []⟩ := rfl

@[simp] theorem State.buf_accept (rest : List Byte) (s : State) : (s.accept rest).buf = s.buf := rfl
@[simp] theorem State.outq_accept (rest : List Byte) (s : State) : (s.accept rest).outq = s.outq := rfl
@[simp] theorem State.batchq_accept (rest : List Byte) (s : State) : (s.accept rest).batchq = s.batchq := rfl
@[simp] theorem State.lastClass_accept (rest : List Byte) (s : State) : (s.accept rest).lastClass = s.lastClass := rfl
@[simp] theorem State.lastFlush_accept (rest : List Byte) (s : State) : (s.accept rest).lastFlush = s.lastFlush := rfl
@[simp] theorem State.ackCount_accept (rest : List Byte) (s : State) : (s.accept rest).ackCount = s.ackCount := rfl
@[simp] theorem State.discardCount_accept (rest : List Byte) (s : State) : (s.accept rest).discardCount = s.discardCount := rfl
@[simp] theorem State.cfg_accept (rest : List Byte) (s : State) : (s.accept rest).cfg = s.cfg := rfl
@[simp] theorem State.rx_accept (rest : List Byte) (s : State) : (s.accept rest).rx = rest := rfl
@[simp] theorem State.response_accept (rest : List Byte) (s : State) : (s.accept rest).response = s.response := rfl

@[simp] theorem State.buf_refuseIllegal (s : State) : (s.refuseIllegal).buf = s.buf := rfl
@[simp] theorem State.outq_refuseIllegal (s : State) : (s.refuseIllegal).outq = s.outq := rfl
@[simp] theorem State.batchq_refuseIllegal (s : State) : (s.refuseIllegal).batchq = s.batchq := rfl
@[simp] theorem State.lastClass_refuseIllegal (s : State) : (s.refuseIllegal).lastClass = s.lastClass := rfl
@[simp] theorem State.lastFlush_refuseIllegal (s : State) : (s.refuseIllegal).lastFlush = s.lastFlush := rfl
@[simp] theorem State.ackCount_refuseIllegal (s : State) : (s.refuseIllegal).ackCount = s.ackCount := rfl
@[simp] theorem State.discardCount_refuseIllegal (s : State) : (s.refuseIllegal).discardCount = s.discardCount := rfl
@[simp] theorem State.cfg_refuseIllegal (s : State) : (s.refuseIllegal).cfg = s.cfg := rfl
@[simp] theorem State.rx_refuseIllegal (s : State) : (s.refuseIllegal).rx = s.rx := rfl
@[simp] theorem State.response_refuseIllegal (s : State) : (s.refuseIllegal).response = some ⟨.illegalOp, []⟩ := rfl

@[simp] theorem State.buf_bufSet (f : List Byte) (s : State) : (s.bufSet f).buf = f := rfl
@[simp] theorem State.outq_bufSet (f : List Byte) (s : State) : (s.bufSet f).outq = s.outq := rfl
@[simp] theorem State.batchq_bufSet (f : List Byte) (s : State) : (s.bufSet f).batchq = s.batchq := rfl
@[simp] theorem State.lastClass_bufSet (f : List Byte) (s : State) : (s.bufSet f).lastClass = s.lastClass := rfl
@[simp] theorem State.lastFlush_bufSet (f : List Byte) (s : State) : (s.bufSet f).lastFlush = s.lastFlush := rfl
@[simp] theorem State.ackCount_bufSet (f : List Byte) (s : State) : (s.bufSet f).ackCount = s.ackCount := rfl
@[simp] theorem State.discardCount_bufSet (f : List Byte) (s : State) : (s.bufSet f).discardCount = s.discardCount := rfl
@[simp] theorem State.cfg_bufSet (f : List Byte) (s : State) : (s.bufSet f).cfg = s.cfg := rfl
@[simp] theorem State.rx_bufSet (f : List Byte) (s : State) : (s.bufSet f).rx = s.rx := rfl
@[simp] theorem State.response_bufSet (f : List Byte) (s : State) : (s.bufSet f).response = s.response := rfl

@[simp] theorem State.buf_bufAppend (f : List Byte) (s : State) : (s.bufAppend f).buf = s.buf ++ f := rfl
@[simp] theorem State.outq_bufAppend (f : List Byte) (s : State) : (s.bufAppend f).outq = s.outq := rfl
@[simp] theorem State.batchq_bufAppend (f : List Byte) (s : State) : (s.bufAppend f).batchq = s.batchq := rfl
@[simp] theorem State.lastClass_bufAppend (f : List Byte) (s : State) : (s.bufAppend f).lastClass = s.lastClass := rfl
@[simp] theorem State.lastFlush_bufAppend (f : List Byte) (s : State) : (s.bufAppend f).lastFlush = s.lastFlush := rfl
@[simp] theorem State.ackCount_bufAppend (f : List Byte) (s : State) : (s.bufAppend f).ackCount = s.ackCount := rfl
@[simp] theorem State.discardCount_bufAppend (f : List Byte) (s : State) : (s.bufAppend f).discardCount = s.discardCount := rfl
@[simp] theorem State.cfg_bufAppend (f : List Byte) (s : State) : (s.bufAppend f).cfg = s.cfg := rfl
@[simp] theorem State.rx_bufAppend (f : List Byte) (s : State) : (s.bufAppend f).rx = s.rx := rfl
@[simp] theorem State.response_bufAppend (f : List Byte) (s : State) : (s.bufAppend f).response = s.response := rfl

@[simp] theorem State.buf_bufClear (s : State) : (s.bufClear).buf = [] := rfl
@[simp] theorem State.outq_bufClear (s : State) : (s.bufClear).outq = s.outq := rfl
@[simp] theorem State.batchq_bufClear (s : State) : (s.bufClear).batchq = s.batchq := rfl
@[simp] theorem State.lastClass_bufClear (s : State) : (s.bufClear).lastClass = s.lastClass := rfl
@[simp] theorem State.lastFlush_bufClear (s : State) : (s.bufClear).lastFlush = s.lastFlush := rfl
@[simp] theorem State.ackCount_bufClear (s : State) : (s.bufClear).ackCount = s.ackCount := rfl
@[simp] theorem State.discardCount_bufClear (s : State) : (s.bufClear).discardCount = s.discardCount := rfl
@[simp] theorem State.cfg_bufClear (s : State) : (s.bufClear).cfg = s.cfg := rfl
@[simp] theorem State.rx_bufClear (s : State) : (s.bufClear).rx = s.rx := rfl
@[simp] theorem State.response_bufClear (s : State) : (s.bufClear).response = s.response := rfl

@[simp] theorem State.buf_pushOut (fs : List (List Byte)) (s : State) : (s.pushOut fs).buf = s.buf := rfl
@[simp] theorem State.outq_pushOut (fs : List (List Byte)) (s : State) : (s.pushOut fs).outq = s.outq ++ fs := rfl
@[simp] theorem State.batchq_pushOut (fs : List (List Byte)) (s : State) : (s.pushOut fs).batchq = s.batchq := rfl
@[simp] theorem State.lastClass_pushOut (fs : List (List Byte)) (s : State) : (s.pushOut fs).lastClass = s.lastClass := rfl
@[simp] theorem State.lastFlush_pushOut (fs : List (List Byte)) (s : State) : (s.pushOut fs).lastFlush = s.lastFlush := rfl
@[simp] theorem State.ackCount_pushOut (fs : List (List Byte)) (s : State) : (s.pushOut fs).ackCount = s.ackCount := rfl
@[simp] theorem State.discardCount_pushOut (fs : List (List Byte)) (s : State) : (s.pushOut fs).discardCount = s.discardCount := rfl
@[simp] theorem State.cfg_pushOut (fs : List (List Byte)) (s : State) : (s.pushOut fs).cfg = s.cfg := rfl
@[simp] theorem State.rx_pushOut (fs : List (List Byte)) (s : State) : (s.pushOut fs).rx = s.rx := rfl
@[simp] theorem State.response_pushOut (fs : List (List Byte)) (s : State) : (s.pushOut fs).response = s.response := rfl

@[simp] theorem State.buf_dropOut (rest : List (List Byte)) (s : State) : (s.dropOut rest).buf = s.buf := rfl
@[simp] theorem State.outq_dropOut (rest : List (List Byte)) (s : State) : (s.dropOut rest).outq = rest := rfl
@[simp] theorem State.batchq_dropOut (rest : List (List Byte)) (s : State) : (s.dropOut rest).batchq = s.batchq := rfl
@[simp] theorem State.lastClass_dropOut (rest : List (List Byte)) (s : State) : (s.dropOut rest).lastClass = s.lastClass := rfl
@[simp] theorem State.lastFlush_dropOut (rest : List (List Byte)) (s : State) : (s.dropOut rest).lastFlush = s.lastFlush := rfl
@[simp] theorem State.ackCount_dropOut (rest : List (List Byte)) (s : State) : (s.dropOut rest).ackCount = s.ackCount := rfl
@[simp] theorem State.discardCount_dropOut (rest : List (List Byte)) (s : State) : (s.dropOut rest).discardCount = s.discardCount := rfl
@[simp] theorem State.cfg_dropOut (rest : List (List Byte)) (s : State) : (s.dropOut rest).cfg = s.cfg := rfl
@[simp] theorem State.rx_dropOut (rest : List (List Byte)) (s : State) : (s.dropOut rest).rx = s.rx := rfl
@[simp] theorem State.response_dropOut (rest : List (List Byte)) (s : State) : (s.dropOut rest).response = s.response := rfl

@[simp] theorem State.buf_pushBatch (b : Batch) (s : State) : (s.pushBatch b).buf = s.buf := rfl
@[simp] theorem State.outq_pushBatch (b : Batch) (s : State) : (s.pushBatch b).outq = s.outq := rfl
@[simp] theorem State.batchq_pushBatch (b : Batch) (s : State) : (s.pushBatch b).batchq = s.batchq ++ [b] := rfl
@[simp] theorem State.lastClass_pushBatch (b : Batch) (s : State) : (s.pushBatch b).lastClass = s.lastClass := rfl
@[simp] theorem State.lastFlush_pushBatch (b : Batch) (s : State) : (s.pushBatch b).lastFlush = b.status.code := rfl
@[simp] theorem State.ackCount_pushBatch (b : Batch) (s : State) : (s.pushBatch b).ackCount = s.ackCount := rfl
@[simp] theorem State.discardCount_pushBatch (b : Batch) (s : State) : (s.pushBatch b).discardCount = if b.status = .ok then s.discardCount else s.discardCount + 1#16 := rfl
@[simp] theorem State.cfg_pushBatch (b : Batch) (s : State) : (s.pushBatch b).cfg = s.cfg := rfl
@[simp] theorem State.rx_pushBatch (b : Batch) (s : State) : (s.pushBatch b).rx = s.rx := rfl
@[simp] theorem State.response_pushBatch (b : Batch) (s : State) : (s.pushBatch b).response = s.response := rfl

@[simp] theorem State.buf_dropBatch (rest : List Batch) (s : State) : (s.dropBatch rest).buf = s.buf := rfl
@[simp] theorem State.outq_dropBatch (rest : List Batch) (s : State) : (s.dropBatch rest).outq = s.outq := rfl
@[simp] theorem State.batchq_dropBatch (rest : List Batch) (s : State) : (s.dropBatch rest).batchq = rest := rfl
@[simp] theorem State.lastClass_dropBatch (rest : List Batch) (s : State) : (s.dropBatch rest).lastClass = s.lastClass := rfl
@[simp] theorem State.lastFlush_dropBatch (rest : List Batch) (s : State) : (s.dropBatch rest).lastFlush = s.lastFlush := rfl
@[simp] theorem State.ackCount_dropBatch (rest : List Batch) (s : State) : (s.dropBatch rest).ackCount = s.ackCount := rfl
@[simp] theorem State.discardCount_dropBatch (rest : List Batch) (s : State) : (s.dropBatch rest).discardCount = s.discardCount := rfl
@[simp] theorem State.cfg_dropBatch (rest : List Batch) (s : State) : (s.dropBatch rest).cfg = s.cfg := rfl
@[simp] theorem State.rx_dropBatch (rest : List Batch) (s : State) : (s.dropBatch rest).rx = s.rx := rfl
@[simp] theorem State.response_dropBatch (rest : List Batch) (s : State) : (s.dropBatch rest).response = s.response := rfl

@[simp] theorem State.buf_countAck (s : State) : (s.countAck).buf = s.buf := rfl
@[simp] theorem State.outq_countAck (s : State) : (s.countAck).outq = s.outq := rfl
@[simp] theorem State.batchq_countAck (s : State) : (s.countAck).batchq = s.batchq := rfl
@[simp] theorem State.lastClass_countAck (s : State) : (s.countAck).lastClass = s.lastClass := rfl
@[simp] theorem State.lastFlush_countAck (s : State) : (s.countAck).lastFlush = s.lastFlush := rfl
@[simp] theorem State.ackCount_countAck (s : State) : (s.countAck).ackCount = s.ackCount + 1#16 := rfl
@[simp] theorem State.discardCount_countAck (s : State) : (s.countAck).discardCount = s.discardCount := rfl
@[simp] theorem State.cfg_countAck (s : State) : (s.countAck).cfg = s.cfg := rfl
@[simp] theorem State.rx_countAck (s : State) : (s.countAck).rx = s.rx := rfl
@[simp] theorem State.response_countAck (s : State) : (s.countAck).response = s.response := rfl

@[simp] theorem State.buf_noteClass (c : FrameClass) (s : State) : (s.noteClass c).buf = s.buf := rfl
@[simp] theorem State.outq_noteClass (c : FrameClass) (s : State) : (s.noteClass c).outq = s.outq := rfl
@[simp] theorem State.batchq_noteClass (c : FrameClass) (s : State) : (s.noteClass c).batchq = s.batchq := rfl
@[simp] theorem State.lastClass_noteClass (c : FrameClass) (s : State) : (s.noteClass c).lastClass = c.code := rfl
@[simp] theorem State.lastFlush_noteClass (c : FrameClass) (s : State) : (s.noteClass c).lastFlush = s.lastFlush := rfl
@[simp] theorem State.ackCount_noteClass (c : FrameClass) (s : State) : (s.noteClass c).ackCount = s.ackCount := rfl
@[simp] theorem State.discardCount_noteClass (c : FrameClass) (s : State) : (s.noteClass c).discardCount = s.discardCount := rfl
@[simp] theorem State.cfg_noteClass (c : FrameClass) (s : State) : (s.noteClass c).cfg = s.cfg := rfl
@[simp] theorem State.rx_noteClass (c : FrameClass) (s : State) : (s.noteClass c).rx = s.rx := rfl
@[simp] theorem State.response_noteClass (c : FrameClass) (s : State) : (s.noteClass c).response = s.response := rfl

@[simp] theorem State.buf_clearStatus (s : State) : (s.clearStatus).buf = s.buf := rfl
@[simp] theorem State.outq_clearStatus (s : State) : (s.clearStatus).outq = s.outq := rfl
@[simp] theorem State.batchq_clearStatus (s : State) : (s.clearStatus).batchq = s.batchq := rfl
@[simp] theorem State.lastClass_clearStatus (s : State) : (s.clearStatus).lastClass = 7#3 := rfl
@[simp] theorem State.lastFlush_clearStatus (s : State) : (s.clearStatus).lastFlush = 0xFF#8 := rfl
@[simp] theorem State.ackCount_clearStatus (s : State) : (s.clearStatus).ackCount = 0#16 := rfl
@[simp] theorem State.discardCount_clearStatus (s : State) : (s.clearStatus).discardCount = 0#16 := rfl
@[simp] theorem State.cfg_clearStatus (s : State) : (s.clearStatus).cfg = s.cfg := rfl
@[simp] theorem State.rx_clearStatus (s : State) : (s.clearStatus).rx = s.rx := rfl
@[simp] theorem State.response_clearStatus (s : State) : (s.clearStatus).response = s.response := rfl

@[simp] theorem State.buf_receive (bytes : List Byte) (s : State) : (s.receive bytes).buf = s.buf := rfl
@[simp] theorem State.outq_receive (bytes : List Byte) (s : State) : (s.receive bytes).outq = s.outq := rfl
@[simp] theorem State.batchq_receive (bytes : List Byte) (s : State) : (s.receive bytes).batchq = s.batchq := rfl
@[simp] theorem State.lastClass_receive (bytes : List Byte) (s : State) : (s.receive bytes).lastClass = s.lastClass := rfl
@[simp] theorem State.lastFlush_receive (bytes : List Byte) (s : State) : (s.receive bytes).lastFlush = s.lastFlush := rfl
@[simp] theorem State.ackCount_receive (bytes : List Byte) (s : State) : (s.receive bytes).ackCount = s.ackCount := rfl
@[simp] theorem State.discardCount_receive (bytes : List Byte) (s : State) : (s.receive bytes).discardCount = s.discardCount := rfl
@[simp] theorem State.cfg_receive (bytes : List Byte) (s : State) : (s.receive bytes).cfg = s.cfg := rfl
@[simp] theorem State.rx_receive (bytes : List Byte) (s : State) : (s.receive bytes).rx = s.rx ++ bytes := rfl
@[simp] theorem State.response_receive (bytes : List Byte) (s : State) : (s.receive bytes).response = s.response := rfl

@[simp] theorem State.buf_hostReset (s : State) : (s.hostReset).buf = [] := rfl
@[simp] theorem State.outq_hostReset (s : State) : (s.hostReset).outq = [] := rfl
@[simp] theorem State.batchq_hostReset (s : State) : (s.hostReset).batchq = [] := rfl
@[simp] theorem State.lastClass_hostReset (s : State) : (s.hostReset).lastClass = 7#3 := rfl
@[simp] theorem State.lastFlush_hostReset (s : State) : (s.hostReset).lastFlush = 0xFF#8 := rfl
@[simp] theorem State.ackCount_hostReset (s : State) : (s.hostReset).ackCount = 0#16 := rfl
@[simp] theorem State.discardCount_hostReset (s : State) : (s.hostReset).discardCount = 0#16 := rfl
@[simp] theorem State.cfg_hostReset (s : State) : (s.hostReset).cfg = s.cfg := rfl
@[simp] theorem State.rx_hostReset (s : State) : (s.hostReset).rx = s.rx := rfl
@[simp] theorem State.response_hostReset (s : State) : (s.hostReset).response = none := rfl

end Sys2Proof.Machine
end

