-- ==== Sys2Proof/Laws/Step.lean ====
section
/-! SUPPORT. What one step can do, and what the parameters of a well-formed configuration satisfy. -/

namespace Sys2Proof.Machine

/-- Everything a step can do. -/
theorem step_cases (s : State) :
    (∃ i rest, decode s.rx = .request i rest ∧ step s = exec i (s.accept rest)) ∨
    (∃ why rest, decode s.rx = .illegal why rest ∧ step s = .next (s.accept rest).refuseIllegal) ∨
    (decode s.rx = .incomplete ∧ step s = .next s) := by
  cases h : decode s.rx with
  | request i rest => exact .inl ⟨i, rest, rfl, by simp [step, h]⟩
  | illegal why rest => exact .inr (.inl ⟨why, rest, rfl, by simp [step, h]⟩)
  | incomplete => exact .inr (.inr ⟨rfl, by simp [step, h, State.await]⟩)

/-- The constraints a well-formed configuration meets (00 R9), as propositions. -/
theorem configuration_constraints (c : Config) :
    c.val.destRfid ≠ c.val.destNotif ∧ c.val.evtCmd ≠ c.val.evtTagRead ∧ c.val.ntfTrigPushed ≠ c.val.ntfTrigReleased
      ∧ c.val.nInit ≤ c.val.outDepth ∧ c.val.catalog.length = c.val.nInit + 2
      ∧ (∀ e ∈ c.val.catalog, e.length ≤ 503) ∧ c.val.flushSkip ≤ c.val.bufCap
      ∧ 511 ≤ c.val.bufCap ∧ c.val.bufCap ≤ 4096 ∧ 1 ≤ c.val.outDepth ∧ c.val.outDepth ≤ 255
      ∧ 1 ≤ c.val.batchDepth ∧ c.val.batchDepth ≤ 255 := by
  have h := c.property
  simpa [Cfg.wf, and_assoc] using h

end Sys2Proof.Machine
end

