-- ==== Sys2Proof/Laws/Operands.lean ====
section
/-! SUPPORT. What the operand functions do, in terms of a frame's bytes: the class of a frame, what the dispatcher emits,
the visual ID, the catalog entries; and the induction every fact about extraction goes by. -/

namespace Sys2Proof.Machine

/-- The class of a frame by its length and destination byte (40 R103). -/
theorem classify_eq (c : Cfg) (f : List Byte) :
    classify c f =
      if 8 ≤ f.length ∧ f[3]? = some c.destNotif then .notification
      else if 8 ≤ f.length ∧ f[3]? = some c.destRfid then rfidClass c f
      else .unclassified := by
  by_cases h : 8 ≤ f.length <;> simp [classify, isNotificationFrame, isRfidFrame, hasDestination, hdrLen, destOfs, h]

/-- The event code is at bytes 8 and 9 (40 R103, R105). -/
theorem eventCode_payload (f : List Byte) :
    eventCode (payload f) =
      match f[8]?, f[9]? with
      | some h, some l => .ok (be16 h l)
      | _, _ => .error .truncatedFrame := by
  have e8 : f[8]? = (f.drop 8)[0]? := by simp
  have e9 : f[9]? = (f.drop 8)[1]? := by simp
  rw [e8, e9, payload, hdrLen, eventCode, evtOfs, List.drop_zero]
  match f.drop 8 with
  | [] => rfl
  | [_] => rfl
  | _ :: _ :: _ => rfl

/-- The frames the dispatcher pushes are those the notification's event code calls for (44 R200). -/
theorem dispatchCommand_frames (c : Cfg) (f : List Byte) :
    ((dispatchCommand c f).map (outboundFrame c)).toList = triggerFrames c f := by
  rw [dispatchCommand, payload, hdrLen, eventCode, evtOfs, List.drop_zero, triggerFrames]
  match f.drop 8 with
  | [] => rfl
  | [_] => rfl
  | _ :: _ :: _ => simp only; split_ifs <;> rfl

theorem visualId_short {id : List Byte} (h : id.length < 11) : visualId id = (false, 0#64) := by
  rw [visualId, if_pos (show id.length < vidHi + 1 from h)]

theorem visualId_long {id : List Byte} (h : 11 ≤ id.length) :
    visualId id = (true, be64 ((id.drop 3).take 8).reverse) := by
  rw [visualId, if_neg (show ¬ id.length < vidHi + 1 from Nat.not_lt.mpr h)]
  rfl

/-- A catalog entry of a well-formed configuration (41 R120). -/
theorem catalogEntry_get (c : Config) {k : Nat} (h : k ≤ c.val.nInit + 1) :
    c.val.catalog[k]? = some (catalogEntry c.val k) := by
  have hlen := (configuration_constraints c).2.2.2.2.1
  have hk : k < c.val.catalog.length := by omega
  simp [catalogEntry, List.getD, List.getElem?_eq_getElem hk]

/-- An entry fits the argument of a request when framed (92 D35). -/
theorem catalogEntry_length (c : Config) (k : Nat) : (catalogEntry c.val k).length ≤ 503 := by
  cases h : c.val.catalog[k]? with
  | none => simp [catalogEntry, List.getD, h]
  | some e =>
    have := (configuration_constraints c).2.2.2.2.2.1 e (List.mem_of_getElem? h)
    simpa [catalogEntry, List.getD, h] using this

/-- Induction over extraction (43 R170): the empty input, a failing input, and a record before an input that extracts
OK. -/
theorem extractBatch_induction {P : List Byte → Batch → Prop}
    (nil : P [] ⟨.ok, []⟩)
    (error : ∀ input k, k = .truncatedFrame ∨ k = .invalidProductCode → P input ⟨k, []⟩)
    (record : ∀ b0 b1 id rssi rest, be16 b0 b1 ≠ 0#16 → id.length = idLength (be16 b0 b1) →
      (extractBatch rest).status = .ok → P rest (extractBatch rest) →
      P (b0 :: b1 :: (id ++ rssi :: rest)) ⟨.ok, makeRecord (be16 b0 b1) id rssi :: (extractBatch rest).records⟩)
    (input : List Byte) : P input (extractBatch input) := by
  suffices H : P input (extractBatch input) ∧ ((extractBatch input).status = .ok ∨
      (extractBatch input).status = .truncatedFrame ∨ (extractBatch input).status = .invalidProductCode) from H.1
  induction hn : input.length using Nat.strong_induction_on generalizing input with
  | _ n ih =>
    match input with
    | [] => exact ⟨nil, .inl rfl⟩
    | b :: tl =>
      rw [extractBatch_cons]
      cases hr : readRecord (b :: tl) with
      | error k => exact ⟨error _ _ (readRecord_error hr), .inr (readRecord_error hr)⟩
      | ok p =>
        obtain ⟨r, rest⟩ := p
        have hlen := readRecord_length hr
        obtain ⟨b0, b1, id, rssi, e, hpc, hid, rfl⟩ := readRecord_ok hr
        have ⟨hrest, hstatus⟩ := ih rest.length (by rw [← hn, hlen]; omega) rest rfl
        simp only [Batch.prepend]
        by_cases hok : (extractBatch rest).status = .ok
        · rw [if_pos hok, e]
          exact ⟨record _ _ _ _ _ hpc hid hok hrest, .inl rfl⟩
        · rw [if_neg hok]
          have hbad := hstatus.resolve_left hok
          exact ⟨error _ _ hbad, .inr hbad⟩

end Sys2Proof.Machine
end

