-- ==== Sys2Proof/Laws/PerInstr.lean ====
section
/-! SUPPORT. Statements about every request as syntax, one lemma per constructor: the size of its encoding
(30_encoding.md R87) and the row of the opcode table its header matches (R80). -/

namespace Sys2Proof.Laws

open Sys2Proof.Machine

/-- 30 R87: 2 + N bytes, or 2 bytes for CATALOG. -/
def EncodedSize.Statement (i : Instr) : Prop :=
  i.wf = true → (encode i).length = 2 + argCount i.header

theorem encodedSize_counted (op : BitVec 4) (rsv : BitVec 3) (h : op ≠ 0x5#4) {arg : List Byte} (hw : argFits arg = true) :
    (headerBytes (headerOf op rsv (countOf arg)) ++ arg).length = 2 + argCount (headerOf op rsv (countOf arg)) := by
  simp [argCount_headerOf, h, countOf_toNat hw, headerBytes]; omega

theorem EncodedSize.nop : EncodedSize.Statement .nop := fun _ => by decide
theorem EncodedSize.encode (cmd : List Byte) : EncodedSize.Statement (.encode cmd) := encodedSize_counted _ _ (by decide)
theorem EncodedSize.decode (f : List Byte) : EncodedSize.Statement (.decode f) := encodedSize_counted _ _ (by decide)
theorem EncodedSize.classify (f : List Byte) : EncodedSize.Statement (.classify f) := encodedSize_counted _ _ (by decide)
theorem EncodedSize.event (p : List Byte) : EncodedSize.Statement (.event p) := encodedSize_counted _ _ (by decide)
theorem EncodedSize.catalog (k : BitVec 9) : EncodedSize.Statement (.catalog k) := fun _ => by
  simp [Sys2Proof.encode, Instr.header, Instr.argument, headerBytes, argCount_headerOf]
theorem EncodedSize.init : EncodedSize.Statement .init := fun _ => by decide
theorem EncodedSize.deliver (f : List Byte) : EncodedSize.Statement (.deliver f) := encodedSize_counted _ _ (by decide)
theorem EncodedSize.extract (b : List Byte) : EncodedSize.Statement (.extract b) := encodedSize_counted _ _ (by decide)
theorem EncodedSize.visualid (id : List Byte) : EncodedSize.Statement (.visualid id) := encodedSize_counted _ _ (by decide)
theorem EncodedSize.popOut : EncodedSize.Statement .popOut := fun _ => by decide
theorem EncodedSize.popBatch : EncodedSize.Statement .popBatch := fun _ => by decide
theorem EncodedSize.status : EncodedSize.Statement .status := fun _ => by decide
theorem EncodedSize.sessionReset : EncodedSize.Statement .sessionReset := fun _ => by decide
theorem EncodedSize.reservedE (rsv : BitVec 3) (arg : List Byte) : EncodedSize.Statement (.reservedE rsv arg) :=
  encodedSize_counted _ _ (by decide)
theorem EncodedSize.reservedF (rsv : BitVec 3) (arg : List Byte) : EncodedSize.Statement (.reservedF rsv arg) :=
  encodedSize_counted _ _ (by decide)

/-- 30 R80: the header of a request matches its own row of the table. -/
def HeaderMatches.Statement (i : Instr) : Prop := i.row.covers i.header = true

theorem legal_header_masked (op : BitVec 4) (n : BitVec 9) :
    headerOf op 0#3 n &&& 0xFE00#16 = headerOf op 0#3 0#9 := by
  have hop : op &&& 0xF#4 = op := BitVec.and_allOnes
  rw [show 0xFE00#16 = headerOf 0xF#4 7#3 0#9 by decide, headerOf_and, hop, BitVec.zero_and, BitVec.and_zero]

theorem reserved_header_masked (op : BitVec 4) (rsv : BitVec 3) (n : BitVec 9) :
    headerOf op rsv n &&& 0xF000#16 = headerOf op 0#3 0#9 := by
  have hop : op &&& 0xF#4 = op := BitVec.and_allOnes
  rw [show 0xF000#16 = headerOf 0xF#4 0#3 0#9 by decide, headerOf_and, hop, BitVec.and_zero, BitVec.and_zero]

theorem headerMatches_argument (op : BitVec 4) (n : BitVec 9) {pattern : BitVec 16} (h : headerOf op 0#3 0#9 = pattern)
    (name : String) : OpRow.covers ⟨name, pattern, 0xFE00#16⟩ (headerOf op 0#3 n) = true := by
  simp [OpRow.covers, legal_header_masked, h]

theorem headerMatches_reserved (op : BitVec 4) (rsv : BitVec 3) (n : BitVec 9) {pattern : BitVec 16}
    (h : headerOf op 0#3 0#9 = pattern) (name : String) :
    OpRow.covers ⟨name, pattern, 0xF000#16⟩ (headerOf op rsv n) = true := by
  simp [OpRow.covers, reserved_header_masked, h]

theorem HeaderMatches.nop : HeaderMatches.Statement .nop := by unfold HeaderMatches.Statement; decide
theorem HeaderMatches.encode (cmd : List Byte) : HeaderMatches.Statement (.encode cmd) :=
  headerMatches_argument _ _ (by decide) _
theorem HeaderMatches.decode (f : List Byte) : HeaderMatches.Statement (.decode f) :=
  headerMatches_argument _ _ (by decide) _
theorem HeaderMatches.classify (f : List Byte) : HeaderMatches.Statement (.classify f) :=
  headerMatches_argument _ _ (by decide) _
theorem HeaderMatches.event (p : List Byte) : HeaderMatches.Statement (.event p) :=
  headerMatches_argument _ _ (by decide) _
theorem HeaderMatches.catalog (k : BitVec 9) : HeaderMatches.Statement (.catalog k) :=
  headerMatches_argument _ _ (by decide) _
theorem HeaderMatches.init : HeaderMatches.Statement .init := by unfold HeaderMatches.Statement; decide
theorem HeaderMatches.deliver (f : List Byte) : HeaderMatches.Statement (.deliver f) :=
  headerMatches_argument _ _ (by decide) _
theorem HeaderMatches.extract (b : List Byte) : HeaderMatches.Statement (.extract b) :=
  headerMatches_argument _ _ (by decide) _
theorem HeaderMatches.visualid (id : List Byte) : HeaderMatches.Statement (.visualid id) :=
  headerMatches_argument _ _ (by decide) _
theorem HeaderMatches.popOut : HeaderMatches.Statement .popOut := by unfold HeaderMatches.Statement; decide
theorem HeaderMatches.popBatch : HeaderMatches.Statement .popBatch := by unfold HeaderMatches.Statement; decide
theorem HeaderMatches.status : HeaderMatches.Statement .status := by unfold HeaderMatches.Statement; decide
theorem HeaderMatches.sessionReset : HeaderMatches.Statement .sessionReset := by unfold HeaderMatches.Statement; decide
theorem HeaderMatches.reservedE (rsv : BitVec 3) (arg : List Byte) : HeaderMatches.Statement (.reservedE rsv arg) :=
  headerMatches_reserved _ _ _ (by decide) _
theorem HeaderMatches.reservedF (rsv : BitVec 3) (arg : List Byte) : HeaderMatches.Statement (.reservedF rsv arg) :=
  headerMatches_reserved _ _ _ (by decide) _

end Sys2Proof.Laws
end

