-- ==== Sys2Proof/Laws/Reassembler.lean ====
section
/-! SUPPORT. What the reassembler's shared operations do: the flush, the dispatcher, and DELIVER as one case split. -/

namespace Sys2Proof.Machine

theorem flush_idle {s : State} (h : s.buf = []) : flush s = (false, s) := by simp [flush, h]

theorem flush_accumulating {s : State} (h : s.buf ≠ []) :
    flush s = (true, (s.pushBatch (extractBatch (s.buf.drop s.cfg.val.flushSkip))).bufClear) := by simp [flush, h]

/-- Fail-fast reset: the buffer is empty after every flush (42 R149). -/
theorem flush_buf (s : State) : (flush s).2.buf = [] := by
  by_cases h : s.buf = []
  · simp [flush_idle h, h]
  · simp [flush_accumulating h]

@[simp] theorem flush_outq (s : State) : (flush s).2.outq = s.outq := by
  by_cases h : s.buf = [] <;> simp [flush, h]

@[simp] theorem flush_cfg (s : State) : (flush s).2.cfg = s.cfg := by
  by_cases h : s.buf = [] <;> simp [flush, h]

@[simp] theorem flush_rx (s : State) : (flush s).2.rx = s.rx := by
  by_cases h : s.buf = [] <;> simp [flush, h]

@[simp] theorem flush_ackCount (s : State) : (flush s).2.ackCount = s.ackCount := by
  by_cases h : s.buf = [] <;> simp [flush, h]

/-- The dispatcher pushes at most one frame and touches nothing else (44 R200). -/
theorem dispatch_eq (f : List Byte) (s : State) :
    dispatch f s = ((dispatchCommand s.cfg.val f).isSome,
      s.pushOut ((dispatchCommand s.cfg.val f).map (outboundFrame s.cfg.val)).toList) := by
  cases h : dispatchCommand s.cfg.val f <;> simp [dispatch, h, State.pushOut]

/-- Everything a DELIVER can do (42 R142, R143): Busy, a classified frame, an appended chunk, or an overflow. -/
theorem execDeliver_cases (f : List Byte) (s : State) :
    ((s.outFull || s.batchFull) = true ∧ execDeliver f s = .next (s.raise .busy)) ∨
    ((s.outFull || s.batchFull) = false ∧ classify s.cfg.val f ≠ .unclassified ∧
      execDeliver f s = .next (finishDelivery (classify s.cfg.val f) (takeFrame (classify s.cfg.val f) f s))) ∨
    ((s.outFull || s.batchFull) = false ∧ classify s.cfg.val f = .unclassified ∧
      s.buf.length + f.length ≤ s.cfg.val.bufCap ∧
      execDeliver f s = .next (finishDelivery .unclassified ⟨false, false, s.bufAppend f⟩)) ∨
    ((s.outFull || s.batchFull) = false ∧ classify s.cfg.val f = .unclassified ∧
      s.cfg.val.bufCap < s.buf.length + f.length ∧
      execDeliver f s = .next (finishDelivery .unclassified ⟨true, false, (overflow s).2⟩)) := by
  cases hb : s.outFull || s.batchFull
  · right
    by_cases hc : classify s.cfg.val f = .unclassified
    · right
      rcases Nat.lt_or_ge s.cfg.val.bufCap (s.buf.length + f.length) with h | h
      · right
        simp only [execDeliver, hb, acceptDelivery, takeDelivery, takeChunk, hc, h, ite_true, overflow]
        simp
      · left
        simp only [execDeliver, hb, acceptDelivery, takeDelivery, takeChunk, hc, Nat.not_lt.mpr h, ite_true, ite_false]
        simp [h]
    · left
      simp [execDeliver, hb, acceptDelivery, takeDelivery, hc]
  · left
    simp [execDeliver, hb]

end Sys2Proof.Machine
end

