-- ==== Sys2Proof/Machine/Assembler.lean ====
section
/-! DEFINITION. The textual request syntax of 30_encoding.md R88 and the pseudo-requests of R89. Nothing in `step` reads
text: the host's assembler does, and what it assembles is `encode` of a request. -/

namespace Sys2Proof.Machine

/-! ### Pseudo-requests (30 R89). A byte that is never read inbound (30 R71) is written 0x00. -/

/-- The inbound frame the pseudo-requests write: a destination, an event code and a body. -/
def inboundFrame (dest : Byte) (e : BitVec 16) (body : List Byte) : List Byte :=
  [0x00#8, 0x00#8, 0x00#8, dest, 0x00#8, 0x00#8, 0x00#8, 0x00#8] ++ bytesBe e.toNat 2 ++ body

/-- `NOTIFY e16`. -/
def pseudoNotify (c : Cfg) (e : BitVec 16) : Instr := .deliver (inboundFrame c.destNotif e [])

/-- `RFIDEVT e16 <hex body>`. -/
def pseudoRfidEvt (c : Cfg) (e : BitVec 16) (body : List Byte) : Instr := .deliver (inboundFrame c.destRfid e body)

/-- `TAGREAD <hex body>`. -/
def pseudoTagRead (c : Cfg) (body : List Byte) : Instr := pseudoRfidEvt c c.evtTagRead body

/-- `ACK`. -/
def pseudoAck (c : Cfg) : Instr := pseudoRfidEvt c c.evtCmd []

/-- `CHUNK <hex bytes>`. -/
def pseudoChunk (f : List Byte) : Instr := .deliver f

/-- A line of request text (30 R88, R89). -/
inductive SourceLine where
  /-- A request, or a pseudo-request that expands to one. -/
  | request (i : Instr)
  /-- `ENCODE_CAT k`: `CATALOG k`, then `ENCODE` of that response's data, which the host runs second. -/
  | encodeCat (k : BitVec 9)
  /-- A `.cfg NAME = value` line: assembles to nothing. -/
  | configuration
deriving DecidableEq, Repr

/-- The second request of `ENCODE_CAT`, from the first one's response. -/
def encodeCatSecond (r : Response) : Instr := .encode r.data

/-- The bytes a line assembles to before any response is seen (30 R88). -/
def SourceLine.bytes : SourceLine → List Byte
  | .request i => encode i
  | .encodeCat k => encode (.catalog k)
  | .configuration => []

/-! ### Text (30 R88; the points R88 leaves open: log 15) -/

/-- The value of a hex digit, of either case. -/
def hexDigit (c : Char) : Option Nat :=
  if 48 ≤ c.toNat ∧ c.toNat ≤ 57 then some (c.toNat - 48)
  else if 65 ≤ c.toNat ∧ c.toNat ≤ 70 then some (c.toNat - 55)
  else if 97 ≤ c.toNat ∧ c.toNat ≤ 102 then some (c.toNat - 87)
  else none

/-- Bytes as pairs of hex digits that may be separated by spaces. -/
def parseHex : List Char → Option (List Byte)
  | [] => some []
  | ' ' :: text => parseHex text
  | [_] => none
  | hi :: lo :: text =>
    match hexDigit hi, hexDigit lo, parseHex text with
    | some h, some l, some bytes => some (BitVec.ofNat 8 (16 * h + l) :: bytes)
    | _, _, _ => none

/-- A decimal index. -/
def parseDecimal (text : List Char) : Option Nat :=
  if text = [] then none
  else text.foldl (fun acc c =>
    match acc with
    | some n => if 48 ≤ c.toNat ∧ c.toNat ≤ 57 then some (10 * n + (c.toNat - 48)) else none
    | none => none) (some 0)

/-- A catalog index that fits the field N. -/
def parseIndex (text : List Char) : Option (BitVec 9) :=
  match parseDecimal text with
  | some n => if n ≤ frameMax then some (BitVec.ofNat 9 n) else none
  | none => none

/-- A request without arguments: the mnemonic alone. -/
def bareRequest (args : List Char) (i : Instr) : Option SourceLine :=
  if args = [] then some (.request i) else none

/-- A request whose argument is a hex list; refused when it does not fit the field N. -/
def hexRequest (args : List Char) (mk : List Byte → Instr) : Option SourceLine :=
  match parseHex args with
  | some bytes => if (mk bytes).wf then some (.request (mk bytes)) else none
  | none => none

/-- A request whose argument starts with a 16-bit event code. -/
def eventRequest (args : List Char) (mk : BitVec 16 → List Byte → Option Instr) : Option SourceLine :=
  match parseHex args with
  | some (h :: l :: body) =>
    match mk (be16 h l) body with
    | some i => if i.wf then some (.request i) else none
    | none => none
  | _ => none

/-- The first word of a line. -/
def firstWord (line : List Char) : List Char := line.takeWhile (· ≠ ' ')

/-- What follows the first word, without the spaces between. -/
def afterWord (line : List Char) : List Char := (line.dropWhile (· ≠ ' ')).dropWhile (· = ' ')

/-- One line of request text (30 R88, R89), under the configuration the pseudo-requests name. -/
def parseLine (c : Cfg) (line : List Char) : Option SourceLine :=
  let args := afterWord line
  match String.ofList (firstWord line) with
  | "NOP" => bareRequest args .nop
  | "ENCODE" => hexRequest args .encode
  | "DECODE" => hexRequest args .decode
  | "CLASSIFY" => hexRequest args .classify
  | "EVENT" => hexRequest args .event
  | "CATALOG" => (parseIndex args).map (fun k => .request (.catalog k))
  | "INIT" => bareRequest args .init
  | "DELIVER" => hexRequest args .deliver
  | "EXTRACT" => hexRequest args .extract
  | "VISUALID" => hexRequest args .visualid
  | "POP_OUT" => bareRequest args .popOut
  | "POP_BATCH" => bareRequest args .popBatch
  | "STATUS" => bareRequest args .status
  | "SESSION_RESET" => bareRequest args .sessionReset
  | "NOTIFY" => eventRequest args (fun e body => if body = [] then some (pseudoNotify c e) else none)
  | "RFIDEVT" => eventRequest args (fun e body => some (pseudoRfidEvt c e body))
  | "TAGREAD" => hexRequest args (pseudoTagRead c)
  | "ACK" => bareRequest args (pseudoAck c)
  | "CHUNK" => hexRequest args pseudoChunk
  | "ENCODE_CAT" => (parseIndex args).map .encodeCat
  | ".cfg" => some .configuration
  | _ => none

end Sys2Proof.Machine
end

