-- ==== Sys2Proof/Tests/Slice0.lean ====
section
/-! SUPPORT. Tests with results from spec/ (each names its source), the smoke test of well-formedness, and a witness for
the hypotheses of every statement that has some. -/

namespace Sys2Proof.Tests

open Sys2Proof Sys2Proof.Machine

/-! ### The test configuration EX of 95_test_vectors.md. PRESUMED (log 14), safe: nothing outside this file uses it. -/

def ex : Cfg where
  prefixByte := 0xA7#8
  conn := 0xB3#8
  reservedByte := 0x82#8
  dirDown := 0x37#8
  destRfid := 0xC2#8
  destNotif := 0xD9#8
  evtCmd := 0x8002#16
  evtTagRead := 0x8100#16
  ntfTrigPushed := 0xA102#16
  ntfTrigReleased := 0xA103#16
  nInit := 3
  catalog := [[0x80#8, 0x00#8], [0x80#8, 0x02#8, 0x11#8, 0x11#8], [0x80#8, 0x02#8, 0x22#8, 0x22#8],
    [0x80#8, 0x02#8, 0x53#8, 0x54#8], [0x80#8, 0x02#8, 0x41#8, 0x42#8]]

/-- EX' of program P4. -/
def exSmall : Cfg := { ex with bufCap := 511, batchDepth := 1 }

theorem test_ex_wf : ex.wf = true := by decide
theorem test_exSmall_wf : exSmall.wf = true := by decide

/-- Right after reset under EX, and under EX'. -/
def start : State := State.resetWith ⟨ex, test_ex_wf⟩
def startSmall : State := State.resetWith ⟨exSmall, test_exSmall_wf⟩

/-- The response bytes of one request, and the state after it. -/
def answer (i : Instr) (s : State) : List Byte :=
  match exec i s with
  | .next t => t.responseBytes
  | .fault _ => []
  | .refused _ => []

def after (i : Instr) (s : State) : State :=
  match exec i s with
  | .next t => t
  | .fault _ => s
  | .refused _ => s

/-- An inbound frame of destination d with the bytes from offset 8 given; the other header bytes are 00. -/
def frameTo (d : Byte) (body : List Byte) : List Byte :=
  [0x00#8, 0x00#8, 0x00#8, d, 0x00#8, 0x00#8, 0x00#8, 0x00#8] ++ body

/-- Frames of EX: a tag read with body 00 01 C5, an acknowledgment, another RFID event, three notifications. -/
def tagRead : List Byte := frameTo 0xC2#8 [0x81#8, 0x00#8, 0x00#8, 0x01#8, 0xC5#8]
def ackFrame : List Byte := frameTo 0xC2#8 [0x80#8, 0x02#8]
def otherFrame : List Byte := frameTo 0xC2#8 []
def pushed : List Byte := frameTo 0xD9#8 [0xA1#8, 0x02#8]
def released : List Byte := frameTo 0xD9#8 [0xA1#8, 0x03#8]
def otherNotice : List Byte := frameTo 0xD9#8 [0xA1#8, 0x04#8]

/-- EX with the tag-read frame buffered, and with n outbound frames queued. -/
def buffered : State := { start with buf := tagRead }
def queued (n : Nat) : State := { start with outq := List.replicate n (hdrDown ex) }

/-- The record of the body 00 01 C5, and the batch of it. -/
def smallRecord : TagRecord := ⟨0x0001#16, [], 0xC5#8, false, 0#64⟩
def smallBatch : Batch := ⟨.ok, [smallRecord]⟩

/-! ### Well-formedness: one ill-formed term for each check (30_encoding.md R78: N is at most 511) -/

def tooLong : List Byte := List.replicate 512 0x00#8

theorem test_wf_encode : (Instr.encode tooLong).wf = false := by decide +kernel
theorem test_wf_decode : (Instr.decode tooLong).wf = false := by decide +kernel
theorem test_wf_classify : (Instr.classify tooLong).wf = false := by decide +kernel
theorem test_wf_event : (Instr.event tooLong).wf = false := by decide +kernel
theorem test_wf_deliver : (Instr.deliver tooLong).wf = false := by decide +kernel
theorem test_wf_extract : (Instr.extract tooLong).wf = false := by decide +kernel
theorem test_wf_visualid : (Instr.visualid tooLong).wf = false := by decide +kernel
theorem test_wf_reservedE : (Instr.reservedE 7#3 tooLong).wf = false := by decide +kernel
theorem test_wf_reservedF : (Instr.reservedF 0#3 tooLong).wf = false := by decide +kernel

/-- 95 H10: the longest argument, 511 bytes, is well-formed. -/
theorem test_wf_longest : (Instr.deliver (List.replicate 511 0x00#8)).wf = true := by decide +kernel

/-! The constraints of 00_scope.md R9, each broken alone. -/

theorem test_cfg_destinations : Config.ofCfg { ex with destNotif := 0xC2#8 } = none := by decide
theorem test_cfg_events : Config.ofCfg { ex with evtTagRead := 0x8002#16 } = none := by decide
theorem test_cfg_triggers : Config.ofCfg { ex with ntfTrigReleased := 0xA102#16 } = none := by decide
theorem test_cfg_outDepth_nInit : Config.ofCfg { ex with outDepth := 2 } = none := by decide
theorem test_cfg_catalog_count : Config.ofCfg { ex with nInit := 4 } = none := by decide
theorem test_cfg_catalog_entry : Config.ofCfg { ex with nInit := 0, catalog := [List.replicate 504 0x00#8, []] } = none := by
  decide +kernel
theorem test_cfg_flushSkip : Config.ofCfg { ex with bufCap := 511, flushSkip := 512 } = none := by decide
theorem test_cfg_bufCap_low : Config.ofCfg { ex with bufCap := 510 } = none := by decide
theorem test_cfg_bufCap_high : Config.ofCfg { ex with bufCap := 4097 } = none := by decide
theorem test_cfg_outDepth_low :
    Config.ofCfg { ex with nInit := 0, catalog := [[], []], outDepth := 0 } = none := by decide
theorem test_cfg_outDepth_high : Config.ofCfg { ex with outDepth := 256 } = none := by decide
theorem test_cfg_batchDepth_low : Config.ofCfg { ex with batchDepth := 0 } = none := by decide
theorem test_cfg_batchDepth_high : Config.ofCfg { ex with batchDepth := 256 } = none := by decide

/-! ### Decoding: one request of each row, its header written out as OP, RSV, N from 30_encoding.md R78 to R80 -/

theorem test_decode_nop : decode (headerBytes 0b0000_000_000000000#16) = .request .nop [] := by decide
theorem test_decode_encode :
    decode (headerBytes 0b0001_000_000000010#16 ++ [0x80#8, 0x00#8]) = .request (.encode [0x80#8, 0x00#8]) [] := by decide
theorem test_decode_decode :
    decode (headerBytes 0b0010_000_000000001#16 ++ [0xA7#8]) = .request (.decode [0xA7#8]) [] := by decide
theorem test_decode_classify :
    decode (headerBytes 0b0011_000_000000001#16 ++ [0x01#8]) = .request (.classify [0x01#8]) [] := by decide
theorem test_decode_event :
    decode (headerBytes 0b0100_000_000000010#16 ++ [0x81#8, 0x00#8]) = .request (.event [0x81#8, 0x00#8]) [] := by decide
theorem test_decode_catalog :
    decode (headerBytes 0b0101_000_100000011#16 ++ [0xAA#8]) = .request (.catalog 259#9) [0xAA#8] := by decide
theorem test_decode_init : decode (headerBytes 0b0110_000_000000000#16) = .request .init [] := by decide
theorem test_decode_deliver :
    decode (headerBytes 0b0111_000_000000001#16 ++ [0x11#8, 0x22#8]) = .request (.deliver [0x11#8]) [0x22#8] := by decide
theorem test_decode_extract : decode (headerBytes 0b1000_000_000000000#16) = .request (.extract []) [] := by decide
theorem test_decode_visualid :
    decode (headerBytes 0b1001_000_000000001#16 ++ [0x7F#8]) = .request (.visualid [0x7F#8]) [] := by decide
theorem test_decode_popOut : decode (headerBytes 0b1010_000_000000000#16) = .request .popOut [] := by decide
theorem test_decode_popBatch : decode (headerBytes 0b1011_000_000000000#16) = .request .popBatch [] := by decide
theorem test_decode_status : decode (headerBytes 0b1100_000_000000000#16) = .request .status [] := by decide
theorem test_decode_sessionReset : decode (headerBytes 0b1101_000_000000000#16) = .request .sessionReset [] := by decide
theorem test_decode_reservedE :
    decode (headerBytes 0b1110_101_000000001#16 ++ [0x7F#8]) = .request (.reservedE 5#3 [0x7F#8]) [] := by decide
theorem test_decode_reservedF :
    decode (headerBytes 0b1111_000_000000010#16 ++ [0x01#8, 0x02#8]) = .request (.reservedF 0#3 [0x01#8, 0x02#8]) [] := by
  decide

/-- 30 R78: byte 0 is OP<<4 | RSV<<1 | N[8]; program P4, step 2: N = 499 gives the header bytes 71 F3. -/
theorem test_encode_long :
    (encode (.deliver (List.replicate 499 0x11#8))).take 2 = [0x71#8, 0xF3#8] := by decide +kernel

/-- 30 R81 (b), (c): illegal headers are consumed with their N argument bytes. -/
theorem test_decode_rsv : decode (headerBytes 0b0001_001_000000001#16 ++ [0xAA#8, 0xBB#8])
    = .illegal .reservedBits [0xBB#8] := by decide
theorem test_decode_nop_argument : decode (headerBytes 0b0000_000_000000001#16 ++ [0x00#8])
    = .illegal .unexpectedArgument [] := by decide
theorem test_decode_short : decode (headerBytes 0b0111_000_000000011#16 ++ [0x11#8, 0x22#8]) = .incomplete := by decide

/-! ### One request each; the expected bytes are those of 95_test_vectors.md -/

/-- 95 F3. -/
theorem test_encode : answer (.encode [0x80#8, 0x02#8, 0xAA#8, 0xBB#8]) start
    = [0x00#8, 0x00#8, 0x0C#8, 0xA7#8, 0xB3#8, 0x0A#8, 0xC2#8, 0x82#8, 0x37#8, 0x00#8, 0x00#8, 0x80#8, 0x02#8, 0xAA#8,
       0xBB#8] := by decide
/-- 95 F1. -/
theorem test_encode_empty : answer (.encode []) start
    = [0x00#8, 0x00#8, 0x08#8, 0xA7#8, 0xB3#8, 0x0A#8, 0xC2#8, 0x82#8, 0x37#8, 0x00#8, 0x00#8] := by decide
/-- 95 F6. -/
theorem test_decode : answer (.decode [0xA7#8, 0xB3#8, 0x0A#8, 0xC2#8, 0x82#8, 0x9E#8, 0x00#8, 0x00#8, 0x80#8, 0x02#8, 0x00#8])
    start = [0x00#8, 0x00#8, 0x04#8, 0xC2#8, 0x80#8, 0x02#8, 0x00#8] := by decide
/-- 95 W2, 7 bytes. -/
theorem test_decode_truncated : answer (.decode [0x00#8, 0x00#8, 0x00#8, 0xC2#8, 0x00#8, 0x00#8, 0x00#8]) start
    = [0x01#8, 0x00#8, 0x00#8] := by decide
/-- 95 F17: only byte 3 is the destination. -/
theorem test_classify_destination :
    answer (.classify [0xC2#8, 0xC2#8, 0xC2#8, 0x00#8, 0xC2#8, 0xC2#8, 0xC2#8, 0xC2#8, 0x81#8, 0x00#8]) start
    = [0x00#8, 0x00#8, 0x01#8, 0x04#8] := by decide
/-- 95 F11. -/
theorem test_classify_tag_read : answer (.classify (frameTo 0xC2#8 [0x81#8, 0x00#8])) start
    = [0x00#8, 0x00#8, 0x01#8, 0x02#8] := by decide
/-- 95 F21. -/
theorem test_event : answer (.event [0xA1#8, 0x02#8, 0xFF#8, 0xFF#8]) start
    = [0x00#8, 0x00#8, 0x02#8, 0xA1#8, 0x02#8] := by decide
/-- 95 F19. -/
theorem test_event_truncated : answer (.event [0x81#8]) start = [0x01#8, 0x00#8, 0x00#8] := by decide
/-- 95 K4. -/
theorem test_catalog : answer (.catalog 3#9) start = [0x00#8, 0x00#8, 0x04#8, 0x80#8, 0x02#8, 0x53#8, 0x54#8] := by decide
/-- 95 K6. -/
theorem test_catalog_badIndex : answer (.catalog 5#9) start = [0x05#8, 0x00#8, 0x00#8] := by decide
/-- 41 R123, its example. -/
theorem test_init : (after .init start).outq
    = [[0xA7#8, 0xB3#8, 0x0A#8, 0xC2#8, 0x82#8, 0x37#8, 0x00#8, 0x00#8, 0x80#8, 0x00#8],
       [0xA7#8, 0xB3#8, 0x0A#8, 0xC2#8, 0x82#8, 0x37#8, 0x00#8, 0x00#8, 0x80#8, 0x02#8, 0x11#8, 0x11#8],
       [0xA7#8, 0xB3#8, 0x0A#8, 0xC2#8, 0x82#8, 0x37#8, 0x00#8, 0x00#8, 0x80#8, 0x02#8, 0x22#8, 0x22#8]] := by decide
/-- 95 K9. -/
theorem test_init_busy : answer .init (queued 14) = [0x07#8, 0x00#8, 0x00#8] ∧ (after .init (queued 14)).outq.length = 14 := by
  decide
/-- 95 W7, step 3, from the buffer its first two steps leave: flush before dispatch, one start-inventory frame. -/
theorem test_deliver_trigger :
    answer (.deliver pushed) { start with buf := tagRead ++ [0x00#8, 0x02#8, 0xC6#8] } = [0x00#8, 0x00#8, 0x01#8, 0x18#8]
    ∧ (after (.deliver pushed) { start with buf := tagRead ++ [0x00#8, 0x02#8, 0xC6#8] }).outq
      = [[0xA7#8, 0xB3#8, 0x0A#8, 0xC2#8, 0x82#8, 0x37#8, 0x00#8, 0x00#8, 0x80#8, 0x02#8, 0x53#8, 0x54#8]] := by decide
/-- 95 P4, step 2: one byte more than BUF_CAP overflows. -/
theorem test_deliver_overflow :
    answer (.deliver (List.replicate 499 0x11#8)) { startSmall with buf := tagRead } = [0x00#8, 0x00#8, 0x01#8, 0x0C#8] := by
  decide +kernel
/-- 95 X12. -/
theorem test_extract : answer (.extract [0x30#8, 0x00#8, 0x00#8, 0x01#8, 0x02#8, 0x03#8, 0x04#8, 0x05#8, 0x06#8, 0x07#8, 0x08#8,
      0x09#8, 0x0A#8, 0x0B#8, 0x7B#8]) start
    = [0x00#8, 0x00#8, 0x1C#8, 0x00#8, 0x00#8, 0x01#8, 0x30#8, 0x00#8, 0x0C#8, 0x00#8, 0x01#8, 0x02#8, 0x03#8, 0x04#8, 0x05#8,
       0x06#8, 0x07#8, 0x08#8, 0x09#8, 0x0A#8, 0x0B#8, 0x7B#8, 0x01#8, 0x0A#8, 0x09#8, 0x08#8, 0x07#8, 0x06#8, 0x05#8, 0x04#8,
       0x03#8] := by decide +kernel
/-- 95 X5: trailing padding discards the good record. -/
theorem test_extract_padding : answer (.extract [0x00#8, 0x01#8, 0xC5#8, 0x00#8, 0x00#8]) start
    = [0x02#8, 0x00#8, 0x03#8, 0x02#8, 0x00#8, 0x00#8] := by decide
/-- 95 W6. -/
theorem test_visualid : answer (.visualid [0x01#8, 0x82#8, 0x08#8, 0xA1#8, 0xCD#8, 0x5D#8, 0x94#8, 0x8B#8, 0x32#8, 0x03#8, 0x00#8,
      0x71#8, 0x01#8, 0x00#8, 0x00#8, 0x00#8]) start
    = [0x00#8, 0x00#8, 0x09#8, 0x01#8, 0x00#8, 0x03#8, 0x32#8, 0x8B#8, 0x94#8, 0x5D#8, 0xCD#8, 0xA1#8] := by decide +kernel
/-- 95 V2. -/
theorem test_visualid_short : answer (.visualid (List.replicate 10 0x07#8)) start
    = [0x00#8, 0x00#8, 0x09#8] ++ List.replicate 9 0x00#8 := by decide
/-- 95 D-5. -/
theorem test_popOut_empty : answer .popOut start = [0x06#8, 0x00#8, 0x00#8] := by decide
/-- 20 R60: the older frame leaves first. -/
theorem test_popOut : answer .popOut { start with outq := [[0x01#8], [0x02#8]] } = [0x00#8, 0x00#8, 0x01#8, 0x01#8]
    ∧ (after .popOut { start with outq := [[0x01#8], [0x02#8]] }).outq = [[0x02#8]] := by decide
/-- 95 S1, its last step. -/
theorem test_popBatch : answer .popBatch { start with batchq := [smallBatch] }
    = [0x00#8, 0x00#8, 0x10#8, 0x00#8, 0x00#8, 0x01#8, 0x00#8, 0x01#8, 0x00#8, 0xC5#8] ++ List.replicate 9 0x00#8 := by decide
/-- 95 P4, step 5: an error batch is popped with status OK. -/
theorem test_popBatch_error : answer .popBatch { start with batchq := [⟨.bufferOverflow, []⟩] }
    = [0x00#8, 0x00#8, 0x03#8, 0x03#8, 0x00#8, 0x00#8] := by decide
/-- 95 D-6. -/
theorem test_status : answer .status start
    = [0x00#8, 0x00#8, 0x0A#8, 0x0E#8, 0xFF#8, 0x00#8, 0x00#8, 0x00#8, 0x00#8, 0x00#8, 0x00#8, 0x00#8, 0x00#8] := by decide
/-- 95 P2, step 4: ACCUM = 1, LAST_CLASS = 4, BUF_LEN = 44. -/
theorem test_status_accumulating :
    answer .status { start with buf := List.replicate 44 0x00#8, lastClass := 4#3 }
    = [0x00#8, 0x00#8, 0x0A#8, 0x09#8, 0xFF#8, 0x00#8, 0x2C#8, 0x00#8, 0x00#8, 0x00#8, 0x00#8, 0x00#8, 0x00#8] := by decide
/-- 95 S14: the partial batch is dropped, and the queues keep their entries (44 R208). -/
theorem test_sessionReset :
    (after .sessionReset { buffered with batchq := [smallBatch], lastClass := 2#3, ackCount := 5#16 }).buf = []
    ∧ (after .sessionReset { buffered with batchq := [smallBatch], lastClass := 2#3, ackCount := 5#16 }).batchq = [smallBatch] := by
  decide
/-- 95 H1. -/
theorem test_nop : answer .nop start = [0x00#8, 0x00#8, 0x00#8] := by decide
/-- 95 H4. -/
theorem test_reservedE : answer (.reservedE 0#3 []) start = [0x04#8, 0x00#8, 0x00#8] := by decide
/-- 95 H5. -/
theorem test_reservedF : answer (.reservedF 0#3 [0x01#8, 0x02#8]) start = [0x04#8, 0x00#8, 0x00#8] := by decide

/-- 95 H7 and 60 R234: an illegal INIT is IllegalOp even when OUTQ is full. -/
theorem test_step_illegal :
    (match step { queued 16 with rx := [0x60#8, 0x01#8, 0x00#8] } with
      | .next t => t.responseBytes
      | .fault _ => []
      | .refused _ => []) = [0x04#8, 0x00#8, 0x00#8] := by decide

/-- A table word runs as the first request after reset (log 10): DELIVER with two zero bytes (30 R80). -/
theorem test_first_request :
    decodeTableWord 16 0x7002 = some (.deliver [0x00#8, 0x00#8])
    ∧ (match step (State.reset.withFetchWord 16 0x7002) with
      | .next _ => true
      | .fault _ => false
      | .refused _ => false) = true := by decide

/-! ### Request text (30_encoding.md R88, R89) -/

/-- 30 R88, its example. -/
theorem test_text_deliver : parseLine ex "DELIVER A7 B3 0A D9".toList
    = some (.request (.deliver [0xA7#8, 0xB3#8, 0x0A#8, 0xD9#8])) := by decide +kernel
/-- 95 P1, step 2. -/
theorem test_text_notify : (parseLine ex "NOTIFY A102".toList).map SourceLine.bytes
    = some [0x70#8, 0x0A#8, 0x00#8, 0x00#8, 0x00#8, 0xD9#8, 0x00#8, 0x00#8, 0x00#8, 0x00#8, 0xA1#8, 0x02#8] := by
  decide +kernel
/-- 30 R89: CATALOG k first. -/
theorem test_text_encodeCat : (parseLine ex "ENCODE_CAT 3".toList).map SourceLine.bytes = some [0x50#8, 0x03#8] := by
  decide +kernel
/-- A line that is no request. -/
theorem test_text_refused : parseLine ex "DELIVER A7 B".toList = none := by decide +kernel

/-! ### Witnesses: the hypotheses of each statement can be met together, clause by clause -/

theorem witness_DecodeInvertsEncode : (Instr.encode (List.replicate 511 0xAA#8)).wf = true := by decide +kernel

theorem witness_DecodeReadsOnlyEncodings :
    decode [0x10#8, 0x01#8, 0xAA#8, 0xBB#8] = .request (.encode [0xAA#8]) [0xBB#8] := by decide

/-- A header that a row covers with its argument, and one that no row covers. -/
theorem witness_DecodeFollowsOpcodeTable :
    ([0xAA#8].length = argCount 0x1001#16 ∧ ∃ r ∈ opcodeTable, r.covers 0x1001#16 = true)
    ∧ ([0xAA#8].length = argCount 0x0001#16 ∧ ∀ r ∈ opcodeTable, r.covers 0x0001#16 = false) := by decide

theorem witness_StepRunsDecodedRequest :
    decode ({ start with rx := [0x10#8, 0x01#8, 0xAA#8, 0xBB#8] } : State).rx = .request (.encode [0xAA#8]) [0xBB#8] := by decide

/-- One byte at the port, and a header with one of its two argument bytes. -/
theorem witness_StepWaitsForWholeRequest :
    ({ start with rx := [0x10#8] } : State).rx.length < 2
    ∧ (({ start with rx := [0x10#8, 0x02#8, 0xAA#8] } : State).rx = headerBytes 0x1002#16 ++ [0xAA#8]
      ∧ [0xAA#8].length < argCount 0x1002#16) := by decide

/-- Each way to be illegal: a reserved OP, RSV ≠ 000 (on CATALOG too), N ≠ 0. -/
theorem witness_IllegalRequestsAnswerIllegalOp :
    ([0xAA#8].length = (if headerOp 0xE001#16 = 0x5#4 then 0 else (headerN 0xE001#16).toNat) ∧ headerOp 0xE001#16 = 0xE#4)
    ∧ ([0xAA#8].length = (if headerOp 0xF001#16 = 0x5#4 then 0 else (headerN 0xF001#16).toNat) ∧ headerOp 0xF001#16 = 0xF#4)
    ∧ (([] : List Byte).length = (if headerOp 0x5203#16 = 0x5#4 then 0 else (headerN 0x5203#16).toNat)
      ∧ headerRsv 0x5203#16 ≠ 0#3)
    ∧ ([0xAA#8].length = (if headerOp 0xD001#16 = 0x5#4 then 0 else (headerN 0xD001#16).toNat)
      ∧ headerOp 0xD001#16 ∈ [0x0#4, 0x6#4, 0xA#4, 0xB#4, 0xC#4, 0xD#4] ∧ headerN 0xD001#16 ≠ 0#9) := by decide

theorem witness_StepTakesOneRequest :
    decode ({ start with rx := [0xD0#8, 0x00#8, 0xAA#8] } : State).rx = .request .sessionReset [0xAA#8]
    ∧ step { start with rx := [0xD0#8, 0x00#8, 0xAA#8] }
      = .next { start with rx := [0xAA#8], response := some ⟨.ok, []⟩ } := ⟨by decide, rfl⟩

theorem witness_ArrivalsDoNotDisturbRequest :
    decode ({ start with rx := [0xD0#8, 0x00#8, 0xAA#8] } : State).rx ≠ .incomplete
    ∧ step { start with rx := [0xD0#8, 0x00#8, 0xAA#8] }
      = .next { start with rx := [0xAA#8], response := some ⟨.ok, []⟩ } := ⟨by decide, rfl⟩

/-- The lengths where the clauses meet: 7 and 8. -/
theorem witness_DecodeSplitsFrame : (tagRead.take 7).length < 8 ∧ 8 ≤ (tagRead.take 8).length := by decide

/-- A row of the class table each, with f the frame. -/
theorem witness_ClassifyFollowsClassTable :
    classify ex pushed = .notification ∧ classify ex ackFrame = .rfidCommandAck ∧ classify ex tagRead = .rfidTagRead
    ∧ classify ex otherFrame = .rfidOther ∧ classify ex (tagRead.take 7) = .unclassified := by decide

/-- Two frames that differ in every byte CLASSIFY does not read. -/
theorem witness_ClassifyReadsThreeBytes :
    let g : List Byte := [0xA7#8, 0xB3#8, 0x0A#8, 0xC2#8, 0x82#8, 0x9E#8, 0x01#8, 0x02#8, 0x81#8, 0x00#8, 0x30#8, 0x40#8, 0x50#8]
    tagRead.length = g.length ∧ tagRead[3]? = g[3]? ∧ tagRead[8]? = g[8]? ∧ tagRead[9]? = g[9]? := by decide

/-- The lengths where the clauses meet: 1 and 2. -/
theorem witness_EventReadsCode : [0x81#8].length < 2 ∧ 2 ≤ [0x81#8, 0x00#8].length := by decide

theorem witness_EncodeDecodeRecoversCommand : (List.replicate 503 0x11#8).length ≤ 503 := by decide +kernel

/-- A command below two bytes, and commands of two bytes with each event code. -/
theorem witness_EncodedFramesClassifyByCommand :
    [0x80#8].length < 2 ∧ be16 0x81#8 0x00#8 = ex.evtTagRead ∧ be16 0x80#8 0x02#8 = ex.evtCmd := by decide

/-- Both sides of the check are met: a refused configuration and a well-formed one. -/
theorem witness_ConfigurationCheckRefusesIllFormed :
    Config.ofCfg { ex with bufCap := 510 } = none ∧ Config.ofCfg { ex with bufCap := 511 } ≠ none := by decide

/-- The indices where the clauses meet: N_INIT + 1 and N_INIT + 2. -/
theorem witness_CatalogReadsEntry :
    (4#9).toNat ≤ start.cfg.val.nInit + 1 ∧ start.cfg.val.nInit + 2 ≤ (5#9).toNat := by decide

/-- 13 frames leave exactly N_INIT = 3 free entries, 14 leave two. -/
theorem witness_InitQueuesWholeSequence :
    (((queued 13).cfg.val.outDepth : Int) - (queued 13).outq.length ≥ (queued 13).cfg.val.nInit)
    ∧ (((queued 14).cfg.val.outDepth : Int) - (queued 14).outq.length < (queued 14).cfg.val.nInit) := by decide

theorem witness_StepKeepsConfiguration :
    step { start with rx := [0x00#8, 0x00#8] } = .next { start with response := some ⟨.ok, []⟩ } := rfl

theorem witness_DeliverBusyChangesNothing :
    (queued 16).outq.length = (queued 16).cfg.val.outDepth
    ∧ ({ start with batchq := List.replicate 8 smallBatch } : State).batchq.length = start.cfg.val.batchDepth := by decide

/-- Every classified class in Idle. -/
theorem witness_DeliverFrameWhenIdle :
    start.HasRoom ∧ start.buf = []
    ∧ (classify start.cfg.val pushed = .notification ∧ classify start.cfg.val ackFrame = .rfidCommandAck)
    ∧ (classify start.cfg.val tagRead = .rfidTagRead ∧ classify start.cfg.val otherFrame = .rfidOther) := by decide

/-- Every classified class in Accumulating. -/
theorem witness_DeliverFrameWhenAccumulating :
    buffered.HasRoom ∧ buffered.buf ≠ []
    ∧ (classify buffered.cfg.val pushed = .notification ∧ classify buffered.cfg.val ackFrame = .rfidCommandAck)
    ∧ (classify buffered.cfg.val tagRead = .rfidTagRead ∧ classify buffered.cfg.val otherFrame = .rfidOther) := by decide

/-- 13 + 498 = 511 = BUF_CAP fits, one byte more does not (95 S15, P4). -/
theorem witness_DeliverChunkEffect :
    let s : State := { startSmall with buf := tagRead }
    s.HasRoom
    ∧ (classify s.cfg.val (List.replicate 498 0x11#8) = .unclassified
      ∧ s.buf.length + (List.replicate 498 0x11#8).length ≤ s.cfg.val.bufCap)
    ∧ (classify s.cfg.val (List.replicate 499 0x11#8) = .unclassified
      ∧ s.cfg.val.bufCap < s.buf.length + (List.replicate 499 0x11#8).length) := by decide +kernel

/-- A pushed and a released trigger, with bytes buffered and without. -/
theorem witness_TriggersEmitTheirCommand :
    (start.HasRoom ∧ buffered.HasRoom ∧ buffered.buf ≠ [])
    ∧ (pushed[3]? = some ex.destNotif ∧ pushed[8]? = some 0xA1#8 ∧ pushed[9]? = some 0x02#8
      ∧ be16 0xA1#8 0x02#8 = ex.ntfTrigPushed)
    ∧ (released[3]? = some ex.destNotif ∧ released[8]? = some 0xA1#8 ∧ released[9]? = some 0x03#8
      ∧ be16 0xA1#8 0x03#8 = ex.ntfTrigReleased) := by decide

/-- A notification with another code, and the shortest one, of 8 bytes, without a code. -/
theorem witness_OtherNotificationsOnlyFlush :
    buffered.HasRoom
    ∧ (8 ≤ otherNotice.length ∧ otherNotice[3]? = some ex.destNotif ∧ otherNotice[8]? = some 0xA1#8
      ∧ otherNotice[9]? = some 0x04#8 ∧ be16 0xA1#8 0x04#8 ≠ ex.ntfTrigPushed ∧ be16 0xA1#8 0x04#8 ≠ ex.ntfTrigReleased)
    ∧ (8 ≤ (frameTo 0xD9#8 []).length ∧ (frameTo 0xD9#8 [])[3]? = some ex.destNotif ∧ (frameTo 0xD9#8 [])[8]? = none) := by
  decide

/-- With the counter at its largest value, so that it wraps (95 S16). -/
theorem witness_AcknowledgmentOnlyCounts :
    ({ buffered with ackCount := 0xFFFF#16 } : State).HasRoom
    ∧ ackFrame[3]? = some ex.destRfid ∧ ackFrame[8]? = some 0x80#8 ∧ ackFrame[9]? = some 0x02#8
    ∧ be16 0x80#8 0x02#8 = ex.evtCmd := by decide

/-- A delivery that pushes a batch result. -/
theorem witness_NoPartialStateAfterFlush : (after (.deliver tagRead) buffered).batchq ≠ buffered.batchq := by decide

/-- An error batch and an OK batch. -/
theorem witness_DeliveryRecordsBatchResult :
    (after (.deliver ackFrame) { start with buf := tagRead.take 12 }).batchq = [⟨.truncatedFrame, []⟩]
    ∧ (after (.deliver ackFrame) buffered).batchq = [smallBatch] := by decide

/-- A frame, two chunks and a boundary. -/
theorem witness_ReassemblyIsConcatenation :
    start.HasRoom ∧ start.buf = [] ∧ classify start.cfg.val tagRead = .rfidTagRead
    ∧ (∀ c ∈ [[0x00#8], [0x02#8, 0xC6#8]], classify start.cfg.val c = .unclassified)
    ∧ (tagRead ++ [[0x00#8], [0x02#8, 0xC6#8]].flatten).length ≤ start.cfg.val.bufCap
    ∧ classify start.cfg.val pushed ≠ .unclassified := by decide

/-- A zero product code; L = 2 with two bytes after it, and with exactly L + 1 = 3. -/
theorem witness_ExtractionRound :
    be16 0x00#8 0x00#8 = 0#16
    ∧ (be16 0x08#8 0x00#8 ≠ 0#16 ∧ [0xAA#8, 0xBB#8].length < ((be16 0x08#8 0x00#8).toNat / 2 ^ 11) * 2 + 1)
    ∧ (be16 0x08#8 0x00#8 ≠ 0#16 ∧ [0xAA#8, 0xBB#8].length = ((be16 0x08#8 0x00#8).toNat / 2 ^ 11) * 2) := by decide

theorem witness_ExtractionLosesNoByte : (extractBatch [0x00#8, 0x01#8, 0xC5#8]).status = .ok := by decide

theorem witness_ExtractionConcatenates :
    (extractBatch [0x00#8, 0x01#8, 0xC5#8]).status = .ok
    ∧ (extractBatch [0x08#8, 0x00#8, 0xAA#8, 0xBB#8, 0xCC#8]).status = .ok := by decide

theorem witness_TrailingPaddingFailsBatch :
    (extractBatch [0x08#8, 0x00#8, 0xAA#8, 0xBB#8, 0xCC#8]).status = .ok := by decide

/-- The lengths where the clauses meet: 10 and 11. -/
theorem witness_VisualIdReversesBytes :
    (List.replicate 10 0x07#8).length < 11 ∧ 11 ≤ (List.replicate 11 0x07#8).length := by decide

theorem witness_VisualIdIsLittleEndian :
    (List.replicate 10 0x07#8).length < 11 ∧ 11 ≤ (List.replicate 11 0x07#8).length := by decide

theorem smallRecord_legal : smallRecord.Legal := by
  refine ⟨by decide, by decide, by decide⟩

theorem smallBatch_legal : smallBatch.Legal :=
  ⟨.inl rfl, fun h => absurd rfl h, fun r hr => by
    rw [List.mem_singleton.mp (show r ∈ [smallRecord] from hr)]; exact smallRecord_legal⟩

/-- The longest identifier, a legal batch out of a buffer, and 1365 records without identifier. -/
theorem witness_RecordImageLayout :
    (List.replicate 62 0x00#8).length ≤ 62 ∧ (smallBatch.Legal ∧ smallBatch.inputSize ≤ 4096)
    ∧ ((List.replicate 1365 smallRecord).length = 1365 ∧ ∀ r ∈ List.replicate 1365 smallRecord, r.id = []) :=
  ⟨by decide, ⟨smallBatch_legal, by decide⟩, List.length_replicate, fun r hr => by rw [List.eq_of_mem_replicate hr]; rfl⟩

theorem witness_BatchImageLossless :
    smallBatch.Legal ∧ smallBatch.records.length < 2 ^ 16 ∧ smallBatch.image = Batch.image ⟨.ok, [smallRecord]⟩ :=
  ⟨smallBatch_legal, by decide, rfl⟩

theorem witness_PopOutTakesOldest : start.outq = [] ∧ (queued 2).outq = hdrDown ex :: [hdrDown ex] := by decide

theorem witness_PopBatchTakesOldest :
    start.batchq = [] ∧ ({ start with batchq := [smallBatch] } : State).batchq = smallBatch :: [] := by decide

/-- A legal state with something in every element, and a tag-read delivery at the port. -/
def busyState : State :=
  { start with buf := tagRead, outq := [hdrDown ex], batchq := [smallBatch], lastClass := 2#3, lastFlush := 0x00#8,
               ackCount := 1#16, discardCount := 1#16, rx := encode (.deliver tagRead) }

theorem busyState_inv : busyState.Inv where
  buf_fits := by decide
  outq_fits := by decide
  outq_frames := by decide
  batchq_fits := by decide
  batchq_legal := fun b hb => by
    rw [List.mem_singleton.mp (show b ∈ [smallBatch] from hb)]; exact smallBatch_legal
  batchq_bounded := by decide
  lastClass_legal := by decide
  lastFlush_legal := by decide

theorem witness_StatusShowsEveryField : busyState.Inv := busyState_inv

/-- Both opcodes with the longest argument. -/
theorem witness_ReservedOpcodesAnswerIllegalOp :
    (0xE#4 = 0xE#4 ∨ 0xE#4 = 0xF#4) ∧ (0xF#4 = 0xE#4 ∨ 0xF#4 = 0xF#4) ∧ (List.replicate 511 0xAA#8).length ≤ 511 := by
  decide +kernel

/-- One of the named requests. -/
theorem witness_PureRequestsAreIdempotent :
    (match Instr.extract [0x00#8, 0x01#8, 0xC5#8] with
      | .nop | .encode _ | .decode _ | .classify _ | .event _ | .catalog _ | .extract _ | .visualid _ | .status => True
      | .init | .deliver _ | .popOut | .popBatch | .sessionReset | .reservedE _ _ | .reservedF _ _ => False) := by decide

/-- A request whose answer is not OK. -/
theorem witness_RequestErrorsChangeNothing : answer (.decode []) start = [0x01#8, 0x00#8, 0x00#8] := by decide

/-- A request that is none of the writers. -/
theorem witness_OnlyTheseRequestsWrite :
    (∀ f, Instr.status ≠ .deliver f) ∧ Instr.status ≠ .sessionReset ∧ Instr.status ≠ .init ∧ Instr.status ≠ .popOut
    ∧ Instr.status ≠ .popBatch := by simp

/-- A request answered with data, and one that is not EXTRACT answered with an error. -/
theorem witness_ResponsesFitTheirLength :
    busyState.Inv ∧ Instr.popBatch.wf = true
    ∧ ((Instr.catalog 5#9).wf = true ∧ (∀ b, Instr.catalog 5#9 ≠ .extract b)
      ∧ (after (.catalog 5#9) busyState).response = some ⟨.badIndex, []⟩) :=
  ⟨busyState_inv, by decide, by decide, by simp, by decide⟩

/-- A legal state whose next step pushes a batch result. -/
theorem witness_StepKeepsLegalState :
    busyState.Inv ∧ step busyState = .next
      { busyState with rx := [], batchq := [smallBatch, smallBatch], response := some ⟨.ok, [0x0A#8]⟩ } :=
  ⟨busyState_inv, rfl⟩

end Sys2Proof.Tests
end

section
/-! The model's configuration check, as the constraints of 00_scope.md R9. -/

namespace Sys2Proof

/-- R9 bounds OUT_DEPTH below by `max(1, N_INIT)`; the check splits that bound into `1 ≤ OUT_DEPTH` and
`N_INIT ≤ OUT_DEPTH`. -/
theorem Cfg.wf_iff (c : Cfg) : c.wf = true ↔
    c.destRfid ≠ c.destNotif ∧ c.evtCmd ≠ c.evtTagRead ∧ c.ntfTrigPushed ≠ c.ntfTrigReleased
      ∧ c.nInit ≤ c.outDepth ∧ c.catalog.length = c.nInit + 2 ∧ (∀ e ∈ c.catalog, e.length ≤ 503)
      ∧ c.flushSkip ≤ c.bufCap ∧ 511 ≤ c.bufCap ∧ c.bufCap ≤ 4096
      ∧ max 1 c.nInit ≤ c.outDepth ∧ c.outDepth ≤ 255 ∧ 1 ≤ c.batchDepth ∧ c.batchDepth ≤ 255 := by
  constructor
  · intro h
    obtain ⟨hDest, hEvt, hTrig, hInit, hCount, hEntry, hSkip, hCapLow, hCapHigh, hOut, hRest⟩ :=
      Machine.configuration_constraints ⟨c, h⟩
    exact ⟨hDest, hEvt, hTrig, hInit, hCount, hEntry, hSkip, hCapLow, hCapHigh, Nat.max_le.mpr ⟨hOut, hInit⟩, hRest⟩
  · rintro ⟨hDest, hEvt, hTrig, hInit, hCount, hEntry, hSkip, hCapLow, hCapHigh, hOut, hOutHigh, hBatch⟩
    have hOutLow : 1 ≤ c.outDepth := (Nat.max_le.mp hOut).1
    simpa [Cfg.wf, and_assoc] using
      ⟨hDest, hEvt, hTrig, hInit, hCount, hEntry, hSkip, hCapLow, hCapHigh, hOutLow, hOutHigh, hBatch⟩

theorem Config.ofCfg_eq_none_iff (c : Cfg) : Config.ofCfg c = none ↔ ¬ c.wf = true := by
  simp [Config.ofCfg]

/-- A well-formed configuration passes the check as itself. -/
@[simp] theorem Config.ofCfg_val (c : Config) : Config.ofCfg c.val = some c :=
  dif_pos c.property

end Sys2Proof

namespace Sys2Proof.Machine

/-- Settles O18: the check refuses what is not `Cfg.wf`, which is R9's conjunction; a state holds only a configuration
that passed the check. -/
theorem configurationCheckRefusesIllFormed : Obligations.ConfigurationCheckRefusesIllFormed := by
  refine ⟨fun c => ?refuses, fun _ _ _ _ _ _ _ _ _ _ _ _ => rfl, fun s => Config.ofCfg_val s.cfg⟩
  case refuses => rw [Config.ofCfg_eq_none_iff, Cfg.wf_iff]

end Sys2Proof.Machine
end

section
/-! SUPPORT. What a decoded request and the extractor's batches satisfy: the argument fits the field N, batches are
legal and no larger than their input. -/

namespace Sys2Proof

theorem argCount_le (h : BitVec 16) : argCount h ≤ frameMax := by
  have hn := (headerN h).isLt
  rw [argCount, frameMax]
  split <;> omega

theorem withArgument_ok {h : BitVec 16} {i j : Instr} (hr : withArgument h i = .ok j) : j = i := by
  rw [withArgument] at hr
  split at hr <;> cases hr
  rfl

theorem withoutArgument_ok {h : BitVec 16} {i j : Instr} (hr : withoutArgument h i = .ok j) : j = i := by
  rw [withoutArgument] at hr
  split_ifs at hr
  cases hr
  rfl

/-- Whatever the opcode, the request carries the argument given, or none. -/
theorem headerRequest_wf {h : BitVec 16} {arg : List Byte} {i : Instr} (harg : argFits arg = true)
    (hr : headerRequest h arg = .ok i) : i.wf = true := by
  rw [headerRequest] at hr
  split at hr
  case h_1 | h_7 | h_11 | h_12 | h_13 | h_14 => rw [withoutArgument_ok hr]; rfl
  case h_2 | h_3 | h_4 | h_5 | h_8 | h_9 | h_10 => rw [withArgument_ok hr]; exact harg
  case h_6 => rw [withArgument_ok hr]; rfl
  case h_15 | h_16 => cases hr; exact harg

/-- The decoder reads only requests whose argument fits the field N (30 R78, R79). -/
theorem decode_wf {bytes rest : List Byte} {i : Instr} (h : decode bytes = .request i rest) : i.wf = true := by
  obtain ⟨hd, arg, -, hlen, hr⟩ := decode_request h
  exact headerRequest_wf (decide_eq_true (hlen ▸ argCount_le hd)) hr

end Sys2Proof

namespace Sys2Proof.Machine

theorem makeRecord_legal {pc : BitVec 16} {id : List Byte} (hpc : pc ≠ 0#16) (hid : id.length = idLength pc)
    (rssi : Byte) : (makeRecord pc id rssi).Legal :=
  ⟨hpc, hid, rfl⟩

/-- A legal record's identifier is a number of 16-bit words, 31 at most (43 R173). -/
theorem TagRecord.Legal.id_length {r : TagRecord} (h : r.Legal) : r.id.length ≤ 62 ∧ r.id.length % 2 = 0 := by
  obtain ⟨-, hid, -⟩ := h
  rw [hid]
  exact ⟨idLength_le r.pc, by rw [idLength_eq]; omega⟩

/-- Extraction never reports an overflow: that status is DELIVER's own (42 R148, 43 R180). -/
theorem extractBatch_status (input : List Byte) :
    (extractBatch input).status = .ok ∨ (extractBatch input).status = .truncatedFrame ∨
      (extractBatch input).status = .invalidProductCode := by
  induction input using extractBatch_induction with
  | nil => exact .inl rfl
  | error _ _ hk => exact .inr hk
  | record => exact .inl rfl

theorem Batch.legal_of_failed {k : Status} (h : k = .truncatedFrame ∨ k = .invalidProductCode ∨ k = .bufferOverflow) :
    Batch.Legal ⟨k, []⟩ :=
  ⟨.inr h, fun _ => rfl, by simp⟩

theorem extractBatch_legal (input : List Byte) : (extractBatch input).Legal := by
  induction input using extractBatch_induction with
  | nil => exact ⟨.inl rfl, fun _ => rfl, by simp⟩
  | error _ _ hk => exact Batch.legal_of_failed (by tauto)
  | record b0 b1 id rssi rest hpc hid _ ih =>
    obtain ⟨-, -, hrecs⟩ := ih
    exact ⟨.inl rfl, fun h => absurd rfl h, List.forall_mem_cons.mpr ⟨makeRecord_legal hpc hid rssi, hrecs⟩⟩

/-- The records of a batch are disjoint parts of the input (43 R170). -/
theorem extractBatch_inputSize_le (input : List Byte) : (extractBatch input).inputSize ≤ input.length := by
  induction input using extractBatch_induction with
  | nil => exact Nat.le_refl 0
  | error => exact Nat.zero_le _
  | record b0 b1 id rssi rest _ _ _ ih =>
    simp only [Batch.inputSize, List.map_cons, List.sum_cons, makeRecord, List.length_cons, List.length_append] at ih ⊢
    omega

theorem Batch.three_mul_records_le (b : Batch) : 3 * b.records.length ≤ b.inputSize := by
  simp [Batch.inputSize, List.sum_map_add, Nat.mul_comm]

/-- Settles O35: legality and size go by induction over extraction; the bounds on an identifier follow from legality. -/
theorem extractedBatchesLegal : Obligations.ExtractedBatchesLegal := by
  intro input
  have hlegal := extractBatch_legal input
  have ⟨_, _, hrecords⟩ := hlegal
  refine ⟨hlegal, ?_, fun r hr => (hrecords r hr).id_length, ?_⟩
  · rcases extractBatch_status input with h | h | h <;> simp [h]
  · exact (extractBatch input).three_mul_records_le.trans (extractBatch_inputSize_le input)

end Sys2Proof.Machine
end

section
/-! SUPPORT. What each request can do to the state, and what the operations of a request keep. -/

namespace Sys2Proof.Machine

/-! ### Everything a request can do -/

theorem execDeliver_accepted {f : List Byte} {s : State} (h : (s.outFull || s.batchFull) = false) :
    execDeliver f s = .next (acceptDelivery f s) := by
  simp [execDeliver, h]

/-- Everything a request can do (10 R24 to R33): an answer and no more, an INIT with room, an accepted DELIVER, a pop of
a queue that has a head, or SESSION_RESET. -/
theorem exec_cases (i : Instr) (s : State) :
    (∃ st data, exec i s = .next (s.respond st data)) ∨
    (i = .init ∧ s.outq.length + s.cfg.val.nInit ≤ s.cfg.val.outDepth ∧
      exec i s = .next ((s.pushOut (initFrames s.cfg.val)).respond .ok [])) ∨
    (∃ f, i = .deliver f ∧ s.outFull = false ∧ s.batchFull = false ∧ exec i s = .next (acceptDelivery f s)) ∨
    (∃ frame rest, i = .popOut ∧ s.outq = frame :: rest ∧ exec i s = .next ((s.dropOut rest).respond .ok frame)) ∨
    (∃ b rest, i = .popBatch ∧ s.batchq = b :: rest ∧ exec i s = .next ((s.dropBatch rest).respond .ok b.image)) ∨
    (i = .sessionReset ∧ exec i s = .next ((s.bufClear.clearStatus).respond .ok [])) := by
  cases i with
  | nop | encode | classify | extract | visualid | status | reservedE | reservedF => exact .inl ⟨_, _, rfl⟩
  | decode f =>
    left
    simp only [exec, execDecode]
    cases decodeFrame f <;> exact ⟨_, _, rfl⟩
  | event p =>
    left
    simp only [exec, execEvent]
    cases eventCode p <;> exact ⟨_, _, rfl⟩
  | catalog k =>
    left
    simp only [exec, execCatalog]
    split <;> exact ⟨_, _, rfl⟩
  | init =>
    rcases Nat.lt_or_ge s.cfg.val.outDepth (s.outq.length + s.cfg.val.nInit) with h | h
    · exact .inl ⟨.busy, [], by simp [exec, execInit, h, State.raise]⟩
    · exact .inr (.inl ⟨rfl, h, by simp [exec, execInit, Nat.not_lt.mpr h]⟩)
  | deliver f =>
    cases hfull : s.outFull || s.batchFull with
    | true => exact .inl ⟨.busy, [], by simp [exec, execDeliver, hfull, State.raise]⟩
    | false =>
      obtain ⟨hout, hbatch⟩ := Bool.or_eq_false_iff.mp hfull
      exact .inr (.inr (.inl ⟨f, rfl, hout, hbatch, execDeliver_accepted hfull⟩))
  | popOut =>
    cases hq : s.outq with
    | nil => exact .inl ⟨.empty, [], by simp [exec, execPopOut, hq, State.raise]⟩
    | cons frame rest =>
      exact .inr (.inr (.inr (.inl ⟨frame, rest, rfl, rfl, by simp [exec, execPopOut, hq]⟩)))
  | popBatch =>
    cases hq : s.batchq with
    | nil => exact .inl ⟨.empty, [], by simp [exec, execPopBatch, hq, State.raise]⟩
    | cons b rest =>
      exact .inr (.inr (.inr (.inr (.inl ⟨b, rest, rfl, rfl, by simp [exec, execPopBatch, hq]⟩))))
  | sessionReset => exact .inr (.inr (.inr (.inr (.inr ⟨rfl, rfl⟩))))

/-! ### What a delivery leaves unchanged -/

@[simp] theorem classAction_cfg (c : FrameClass) (f : List Byte) (s : State) : (classAction c f s).2.cfg = s.cfg := by
  cases c <;> simp [classAction, dispatch_eq]

@[simp] theorem classAction_rx (c : FrameClass) (f : List Byte) (s : State) : (classAction c f s).2.rx = s.rx := by
  cases c <;> simp [classAction, dispatch_eq]

/-- No delivery writes the configuration or the port (20 R59, R64). -/
theorem takeDelivery_keeps (c : FrameClass) (f : List Byte) (s : State) :
    (takeDelivery c f s).after.cfg = s.cfg ∧ (takeDelivery c f s).after.rx = s.rx := by
  rw [takeDelivery]
  split
  · rw [takeChunk]
    split <;> simp [overflow]
  · simp [takeFrame]

@[simp] theorem acceptDelivery_cfg (f : List Byte) (s : State) : (acceptDelivery f s).cfg = s.cfg :=
  (takeDelivery_keeps _ f s).1

@[simp] theorem acceptDelivery_rx (f : List Byte) (s : State) : (acceptDelivery f s).rx = s.rx :=
  (takeDelivery_keeps _ f s).2

/-- Settles O51: what `exec_cases` allows each request to do, element by element. -/
theorem onlyTheseRequestsWrite : Obligations.OnlyTheseRequestsWrite := by
  intro i s
  rcases exec_cases i s with ⟨st, data, h⟩ | ⟨rfl, -, h⟩ | ⟨f, rfl, -, -, h⟩ | ⟨frame, rest, rfl, -, h⟩ |
    ⟨b, rest, rfl, -, h⟩ | ⟨rfl, h⟩ <;>
  exact ⟨_, h, by simp⟩

end Sys2Proof.Machine
end

section
/-! The legal states: each state operation keeps them, so each request does, so each step does. -/

namespace Sys2Proof.Machine

/-! ### The codes a legal state can show -/

theorem FrameClass.code_le (c : FrameClass) : c.code.toNat ≤ 4 := by
  cases c <;> decide

theorem Batch.Legal.status_code_le {b : Batch} (h : b.Legal) : b.status.code.toNat ≤ 3 := by
  obtain ⟨hstatus, -, -⟩ := h
  rcases hstatus with h | h | h | h <;> rw [h] <;> decide

/-! ### The state operations -/

/-- Neither the port nor the response is part of legality. -/
theorem State.Inv.respond {s : State} (h : s.Inv) (st : Status) (data : List Byte) : (s.respond st data).Inv :=
  { h with }

theorem State.Inv.accept {s : State} (h : s.Inv) (rest : List Byte) : (s.accept rest).Inv :=
  { h with }

theorem State.Inv.bufSet {s : State} (h : s.Inv) {f : List Byte} (hf : f.length ≤ s.cfg.val.bufCap) :
    (s.bufSet f).Inv :=
  { h with buf_fits := hf }

theorem State.Inv.bufClear {s : State} (h : s.Inv) : s.bufClear.Inv :=
  { h with buf_fits := Nat.zero_le _ }

theorem State.Inv.bufAppend {s : State} (h : s.Inv) {f : List Byte}
    (hf : s.buf.length + f.length ≤ s.cfg.val.bufCap) : (s.bufAppend f).Inv :=
  { h with buf_fits := by simpa using hf }

theorem State.Inv.pushOut {s : State} (h : s.Inv) {frames : List (List Byte)}
    (hroom : s.outq.length + frames.length ≤ s.cfg.val.outDepth)
    (hframes : ∀ f ∈ frames, 8 ≤ f.length ∧ f.length ≤ 511) : (s.pushOut frames).Inv :=
  { h with
    outq_fits := by simpa using hroom
    outq_frames := List.forall_mem_append.mpr ⟨h.outq_frames, hframes⟩ }

theorem State.Inv.dropOut {s : State} (h : s.Inv) {frame : List Byte} {rest : List (List Byte)}
    (hq : s.outq = frame :: rest) : (s.dropOut rest).Inv where
  __ := h
  outq_fits := by
    have := h.outq_fits
    rw [hq, List.length_cons] at this
    exact Nat.le_of_succ_le this
  outq_frames f hf := h.outq_frames f (hq ▸ List.mem_cons_of_mem frame hf)

theorem State.Inv.pushBatch {s : State} (h : s.Inv) {b : Batch} (hroom : s.batchq.length < s.cfg.val.batchDepth)
    (hlegal : b.Legal) (hsize : b.inputSize ≤ s.cfg.val.bufCap) : (s.pushBatch b).Inv :=
  { h with
    batchq_fits := by simpa using hroom
    batchq_legal := List.forall_mem_append.mpr ⟨h.batchq_legal, List.forall_mem_singleton.mpr hlegal⟩
    batchq_bounded := List.forall_mem_append.mpr ⟨h.batchq_bounded, List.forall_mem_singleton.mpr hsize⟩
    lastFlush_legal := .inl hlegal.status_code_le }

theorem State.Inv.dropBatch {s : State} (h : s.Inv) {b : Batch} {rest : List Batch} (hq : s.batchq = b :: rest) :
    (s.dropBatch rest).Inv where
  __ := h
  batchq_fits := by
    have := h.batchq_fits
    rw [hq, List.length_cons] at this
    exact Nat.le_of_succ_le this
  batchq_legal c hc := h.batchq_legal c (hq ▸ List.mem_cons_of_mem b hc)
  batchq_bounded c hc := h.batchq_bounded c (hq ▸ List.mem_cons_of_mem b hc)

theorem State.Inv.countAck {s : State} (h : s.Inv) : s.countAck.Inv :=
  { h with }

theorem State.Inv.noteClass {s : State} (h : s.Inv) (c : FrameClass) : (s.noteClass c).Inv :=
  { h with lastClass_legal := .inl c.code_le }

theorem State.Inv.clearStatus {s : State} (h : s.Inv) : s.clearStatus.Inv :=
  { h with lastClass_legal := .inr rfl, lastFlush_legal := .inr rfl }

/-- A queue of a legal state that is not full has room for one entry more. -/
theorem State.Inv.outq_lt {s : State} (h : s.Inv) (hroom : s.outFull = false) :
    s.outq.length < s.cfg.val.outDepth :=
  Nat.lt_of_le_of_ne h.outq_fits (by simpa [State.outFull] using hroom)

theorem State.Inv.batchq_lt {s : State} (h : s.Inv) (hroom : s.batchFull = false) :
    s.batchq.length < s.cfg.val.batchDepth :=
  Nat.lt_of_le_of_ne h.batchq_fits (by simpa [State.batchFull] using hroom)

/-! ### Outbound frames -/

/-- A framed catalog entry is a frame: a whole header, and within FRAME_MAX (30 R72, 92 D35). -/
theorem outboundFrame_catalogEntry_length (c : Config) (k : Nat) :
    8 ≤ (outboundFrame c.val (catalogEntry c.val k)).length ∧
      (outboundFrame c.val (catalogEntry c.val k)).length ≤ 511 := by
  have := catalogEntry_length c k
  simp only [outboundFrame, hdrDown, crcDown, List.length_append, List.length_cons, List.length_nil]
  omega

theorem initFrames_length (c : Cfg) : (initFrames c).length = c.nInit := by
  simp [initFrames]

theorem initFrames_frames (c : Config) : ∀ f ∈ initFrames c.val, 8 ≤ f.length ∧ f.length ≤ 511 := by
  intro f hf
  obtain ⟨k, -, rfl⟩ := List.mem_map.mp hf
  exact outboundFrame_catalogEntry_length c k

/-- The dispatcher emits nothing but catalog entries (44 R200). -/
theorem dispatchCommand_some {c : Cfg} {f cmd : List Byte} (h : dispatchCommand c f = some cmd) :
    ∃ k, cmd = catalogEntry c k := by
  rw [dispatchCommand] at h
  split at h
  · cases h
  · split_ifs at h
    · exact ⟨startIdx c, (Option.some.inj h).symm⟩
    · exact ⟨abortIdx c, (Option.some.inj h).symm⟩

/-! ### A delivery -/

theorem State.Inv.flush {s : State} (h : s.Inv) (hroom : s.batchFull = false) : (flush s).2.Inv := by
  by_cases hbuf : s.buf = []
  · rwa [flush_idle hbuf]
  · rw [flush_accumulating hbuf]
    have hsize : (extractBatch (s.buf.drop s.cfg.val.flushSkip)).inputSize ≤ s.cfg.val.bufCap :=
      calc (extractBatch (s.buf.drop s.cfg.val.flushSkip)).inputSize
        _ ≤ (s.buf.drop s.cfg.val.flushSkip).length := extractBatch_inputSize_le _
        _ ≤ s.buf.length := by simp
        _ ≤ s.cfg.val.bufCap := h.buf_fits
    exact (h.pushBatch (h.batchq_lt hroom) (extractBatch_legal _) hsize).bufClear

theorem State.Inv.overflow {s : State} (h : s.Inv) (hroom : s.batchFull = false) : (overflow s).2.Inv :=
  (h.pushBatch (h.batchq_lt hroom) (Batch.legal_of_failed (.inr (.inr rfl))) (Nat.zero_le _)).bufClear

theorem State.Inv.dispatch {s : State} (h : s.Inv) (hroom : s.outFull = false) (f : List Byte) :
    (dispatch f s).2.Inv := by
  rw [Machine.dispatch]
  split
  next cmd hcmd =>
    obtain ⟨k, rfl⟩ := dispatchCommand_some hcmd
    exact h.pushOut (h.outq_lt hroom) (List.forall_mem_singleton.mpr (outboundFrame_catalogEntry_length s.cfg k))
  next => exact h

theorem State.Inv.classAction {s : State} (h : s.Inv) (hroom : s.outFull = false) (c : FrameClass) {f : List Byte}
    (hf : f.length ≤ s.cfg.val.bufCap) : (classAction c f s).2.Inv := by
  cases c with
  | notification => exact h.dispatch hroom f
  | rfidTagRead => exact h.bufSet hf
  | rfidCommandAck => exact h.countAck
  | rfidOther | unclassified => exact h

/-- An accepted delivery keeps a legal state legal; the frame it may buffer fits, since BUF_CAP is at least FRAME_MAX
(00 R9). -/
theorem State.Inv.acceptDelivery {s : State} (h : s.Inv) (hout : s.outFull = false) (hbatch : s.batchFull = false)
    {f : List Byte} (hf : f.length ≤ frameMax) : (acceptDelivery f s).Inv := by
  obtain ⟨-, -, -, -, -, -, -, hcap, -⟩ := configuration_constraints s.cfg
  refine State.Inv.respond (State.Inv.noteClass ?_ _) _ _
  rw [takeDelivery]
  split
  · rw [takeChunk]
    split
    · exact h.overflow hbatch
    next hfits => exact h.bufAppend (Nat.not_lt.mp hfits)
  · have hflushed : (Machine.flush s).2.outFull = false := by simpa [State.outFull] using hout
    exact (h.flush hbatch).classAction hflushed _ (by simpa using hf.trans hcap)

/-! ### Requests and steps -/

/-- Every well-formed request keeps a legal state legal. -/
theorem exec_inv {i : Instr} {s t : State} (hs : s.Inv) (hi : i.wf = true) (ht : exec i s = .next t) : t.Inv := by
  rcases exec_cases i s with ⟨st, data, h⟩ | ⟨-, hroom, h⟩ | ⟨f, rfl, hout, hbatch, h⟩ | ⟨frame, rest, -, hq, h⟩ |
    ⟨b, rest, -, hq, h⟩ | ⟨-, h⟩ <;> obtain rfl := Host.Outcome.next.inj (h.symm.trans ht)
  · exact hs.respond st data
  · exact (hs.pushOut (by rwa [initFrames_length]) (initFrames_frames s.cfg)).respond .ok []
  · exact hs.acceptDelivery hout hbatch (of_decide_eq_true hi)
  · exact (hs.dropOut hq).respond .ok frame
  · exact (hs.dropBatch hq).respond .ok b.image
  · exact hs.bufClear.clearStatus.respond .ok []

/-- Settles O54: a step runs a well-formed request, refuses an illegal one, or waits. -/
theorem stepKeepsLegalState : Obligations.StepKeepsLegalState := by
  intro s t hs ht
  rcases step_cases s with ⟨i, rest, hdecode, h⟩ | ⟨why, rest, -, h⟩ | ⟨-, h⟩ <;> rw [h] at ht
  · exact exec_inv (hs.accept rest) (decode_wf hdecode) ht
  · cases ht
    exact (hs.accept rest).respond .illegalOp []
  · cases ht
    exact hs

end Sys2Proof.Machine
end

section
/-! What every step does with the port and the configuration (20_memory.md R55, R56, R59, R64): it takes one request
off the port, reads nothing behind it, and keeps the configuration. -/

namespace Sys2Proof

open Sys2Proof.Machine

/-- What the bytes were when they hold a whole request, legal or not. -/
theorem decode_whole {bytes : List Byte} (h : decode bytes ≠ .incomplete) :
    ∃ hd arg rest, bytes = headerBytes hd ++ arg ++ rest ∧ arg.length = argCount hd := by
  match bytes with
  | [] | [_] => exact absurd rfl h
  | b0 :: b1 :: body =>
    have hlen : argCount (be16 b0 b1) ≤ body.length := by
      by_contra hshort
      exact h (if_pos (Nat.lt_of_not_le hshort))
    exact ⟨be16 b0 b1, body.take (argCount (be16 b0 b1)), body.drop (argCount (be16 b0 b1)),
      by simp [headerBytes, bytes_be16], List.length_take_of_le hlen⟩

/-- A decoding result with more bytes behind what was decoded. -/
def Decoded.followedBy (more : List Byte) : Decoded → Decoded
  | .request i rest => .request i (rest ++ more)
  | .illegal why rest => .illegal why (rest ++ more)
  | .incomplete => .incomplete

/-- A whole request is decoded the same whatever comes behind it. -/
theorem decode_append {bytes : List Byte} (h : decode bytes ≠ .incomplete) (more : List Byte) :
    decode (bytes ++ more) = (decode bytes).followedBy more := by
  obtain ⟨hd, arg, rest, rfl, hlen⟩ := decode_whole h
  rw [List.append_assoc, decode_parts hd arg _ hlen, decode_parts hd arg rest hlen]
  cases headerRequest hd arg <;> rfl

end Sys2Proof

namespace Sys2Proof.Machine

/-! ### A step by what stands at the port -/

/-- Settles O5: the first branch of `step`. -/
theorem stepRunsDecodedRequest : Obligations.StepRunsDecodedRequest := by
  intro s i rest h
  simp only [step, h, State.accept]

theorem step_illegal {s : State} {why : IllegalReason} {rest : List Byte} (h : decode s.rx = .illegal why rest) :
    step s = .next (s.accept rest).refuseIllegal := by
  simp only [step, h]

/-! ### What a request leaves unchanged -/

theorem exec_keeps {i : Instr} {s t : State} (h : exec i s = .next t) : t.cfg = s.cfg ∧ t.rx = s.rx := by
  obtain ⟨t', ht', -, -, -, hkeeps⟩ := onlyTheseRequestsWrite i s
  obtain rfl := Host.Outcome.next.inj (ht'.symm.trans h)
  exact hkeeps

/-- Settles O9: the port is set to the rest, and the request leaves it alone. -/
theorem stepTakesOneRequest : Obligations.StepTakesOneRequest := by
  intro s t i rest hdecode ht
  rw [stepRunsDecodedRequest s i rest hdecode] at ht
  exact (exec_keeps ht).2

/-- Settles O21: no request writes the configuration, and neither does a refusal or a wait. -/
theorem stepKeepsConfiguration : Obligations.StepKeepsConfiguration := by
  intro s t ht
  rcases step_cases s with ⟨i, rest, -, h⟩ | ⟨why, rest, -, h⟩ | ⟨-, h⟩ <;> rw [h] at ht
  · exact (exec_keeps ht).1
  · cases ht
    rfl
  · cases ht
    rfl

/-! ### What a request does not read: the bytes at the port and the latest response -/

/-- s with other bytes at the request port and another latest response. -/
def State.withPorts (rx : List Byte) (response : Option Response) (s : State) : State :=
  { s with rx := rx, response := response }

section Ports

variable (rx : List Byte) (response : Option Response) (s : State)

@[simp] theorem State.outq_withPorts : (s.withPorts rx response).outq = s.outq := rfl
@[simp] theorem State.batchq_withPorts : (s.withPorts rx response).batchq = s.batchq := rfl

theorem flush_withPorts :
    flush (s.withPorts rx response) = ((flush s).1, (flush s).2.withPorts rx response) := by
  by_cases h : s.buf = []
  · rw [flush_idle h, flush_idle (s := s.withPorts rx response) h]
  · rw [flush_accumulating h, flush_accumulating (s := s.withPorts rx response) h]
    rfl

theorem classAction_withPorts (c : FrameClass) (f : List Byte) :
    classAction c f (s.withPorts rx response) =
      ((classAction c f s).1, (classAction c f s).2.withPorts rx response) := by
  cases c with
  | notification =>
    simp only [classAction, dispatch_eq]
    rfl
  | rfidTagRead | rfidCommandAck | rfidOther | unclassified => rfl

theorem takeDelivery_withPorts (c : FrameClass) (f : List Byte) :
    takeDelivery c f (s.withPorts rx response) =
      { takeDelivery c f s with after := (takeDelivery c f s).after.withPorts rx response } := by
  by_cases hc : c = .unclassified
  · simp only [takeDelivery, if_pos hc, takeChunk]
    by_cases hfits : s.cfg.val.bufCap < s.buf.length + f.length
    · rw [if_pos hfits]
      exact if_pos hfits
    · rw [if_neg hfits]
      exact if_neg hfits
  · simp only [takeDelivery, if_neg hc, takeFrame, flush_withPorts, classAction_withPorts]

/-- The delivery's own response replaces the latest one, so nothing of that is left. -/
theorem acceptDelivery_withPorts (f : List Byte) :
    acceptDelivery f (s.withPorts rx response) = (acceptDelivery f s).accept rx := by
  have h := takeDelivery_withPorts rx response s (classify s.cfg.val f) f
  exact congrArg (finishDelivery (classify s.cfg.val f)) h

end Ports

/-- No request reads the port or the latest response (20 R55): with others there it does the same, and answers the
same. -/
theorem exec_withPorts {i : Instr} {s t : State} (h : exec i s = .next t) (rx : List Byte)
    (response : Option Response) : exec i (s.withPorts rx response) = .next (t.accept rx) := by
  cases i <;> cases h
  case nop | encode | classify | extract | visualid | status | sessionReset | reservedE | reservedF => rfl
  case decode f =>
    simp only [exec, execDecode]
    cases decodeFrame f <;> rfl
  case event p =>
    simp only [exec, execEvent]
    cases eventCode p <;> rfl
  -- The guards read only the configuration and the queues, so each branch may be compared on its own.
  case catalog | init =>
    rw [apply_ite (State.accept rx)]
    rfl
  case deliver f =>
    simp only [exec, execDeliver, acceptDelivery_withPorts]
    rw [apply_ite (State.accept rx)]
    rfl
  case popOut =>
    simp only [exec, execPopOut, State.outq_withPorts]
    cases s.outq <;> rfl
  case popBatch =>
    simp only [exec, execPopBatch, State.batchq_withPorts]
    cases s.batchq <;> rfl

/-- Settles O10: the request is decoded the same (`decode_append`), and it does not read the port. -/
theorem arrivalsDoNotDisturbRequest : Obligations.ArrivalsDoNotDisturbRequest := by
  intro s t more hwhole ht
  have hmore : decode (s.receive more).rx = (decode s.rx).followedBy more := decode_append hwhole more
  rcases step_cases s with ⟨i, rest, hdecode, h⟩ | ⟨why, rest, hdecode, h⟩ | ⟨hdecode, -⟩
  · rw [hdecode] at hmore
    rw [h] at ht
    have hrx : t.rx = rest := (exec_keeps ht).2
    calc step (s.receive more)
      _ = exec i ((s.accept rest).withPorts (rest ++ more) s.response) := stepRunsDecodedRequest _ i _ hmore
      _ = .next (t.accept (rest ++ more)) := exec_withPorts ht _ _
      _ = .next (t.receive more) := by rw [State.receive, State.accept, hrx]
  · rw [hdecode] at hmore
    rw [h] at ht
    cases ht
    exact step_illegal hmore
  · exact absurd hdecode hwhole

/-- Settles O49: of what `exec_cases` allows, a request without side effects can only answer, and it answers the same
whatever the latest response is. -/
theorem pureRequestsAreIdempotent : Obligations.PureRequestsAreIdempotent := by
  intro i s hpure
  rcases exec_cases i s with ⟨st, data, h⟩ | ⟨rfl, -⟩ | ⟨f, rfl, -⟩ | ⟨frame, rest, rfl, -⟩ |
    ⟨b, rest, rfl, -⟩ | ⟨rfl, -⟩
  · exact ⟨⟨st, data⟩, h, exec_withPorts h s.rx (some ⟨st, data⟩)⟩
  all_goals exact hpure.elim

end Sys2Proof.Machine
end

section
/-! The encoding of requests (30_encoding.md R78 to R81): `encode` and `decode` are inverse, the decoder follows the opcode
table, and illegal requests are refused. -/

namespace Sys2Proof

open Sys2Proof.Machine

/-! ### A request's header and argument -/

/-- The count in a request's header is the length of its argument (30 R79). -/
theorem Instr.argument_length {i : Instr} (h : i.wf = true) : i.argument.length = argCount i.header := by
  cases i with
  | nop | init | popOut | popBatch | status | sessionReset => rfl
  | catalog k => simp [Instr.argument, Instr.header, argCount_headerOf]
  | encode arg | decode arg | classify arg | event arg | deliver arg | extract arg | visualid arg | reservedE _ arg
  | reservedF _ arg =>
    have hcount : (countOf arg).toNat = arg.length := countOf_toNat h
    simp [Instr.argument, Instr.header, argCount_headerOf, hcount]

/-- The opcode map reads a request's own header and argument as that request (30 R80). -/
theorem headerRequest_header (i : Instr) : headerRequest i.header i.argument = .ok i := by
  cases i with
  | nop | init | popOut | popBatch | status | sessionReset =>
    simp [headerRequest, Instr.header, withoutArgument]
  | encode | decode | classify | event | catalog | deliver | extract | visualid =>
    simp [headerRequest, Instr.header, Instr.argument, withArgument]
  | reservedE | reservedF => simp [headerRequest, Instr.header, Instr.argument]

/-- Settles O1: the encoding is a header and the argument it counts, which the opcode map reads as the request. -/
theorem decodeInvertsEncode : Obligations.DecodeInvertsEncode := by
  intro i rest hi
  rw [encode, decode_parts _ _ _ (Instr.argument_length hi), headerRequest_header]

/-! ### Whatever decodes is an encoding -/

/-- A header is what its three fields make it (30 R78). -/
theorem headerOf_eq {h : BitVec 16} {op : BitVec 4} {rsv : BitVec 3} {n : BitVec 9}
    (hop : (headerOp h).toNat = op.toNat) (hrsv : headerRsv h = rsv) (hn : headerN h = n) : headerOf op rsv n = h := by
  rw [← BitVec.eq_of_toNat_eq hop, ← hrsv, ← hn, headerOf_fields]

theorem headerN_eq_countOf {h : BitVec 16} {arg : List Byte} (harg : arg.length = argCount h)
    (hop : (headerOp h).toNat ≠ 0x5) : headerN h = countOf arg := by
  have hop' : headerOp h ≠ 0x5#4 := fun e => hop (by rw [e]; rfl)
  simp [countOf, harg, argCount, hop']

theorem argument_eq_nil {h : BitVec 16} {arg : List Byte} (harg : arg.length = argCount h)
    (hnone : (headerOp h).toNat = 0x5 ∨ headerN h = 0#9) : arg = [] := by
  rw [← List.length_eq_zero_iff, harg, argCount]
  rcases hnone with hop | hn
  · exact if_pos (BitVec.eq_of_toNat_eq hop)
  · simp [hn]

theorem headerRsv_of_withArgument {h : BitVec 16} {i j : Instr} (hr : withArgument h i = .ok j) :
    headerRsv h = 0#3 := by
  rw [withArgument] at hr
  split at hr
  · assumption
  · cases hr

theorem fields_of_withoutArgument {h : BitVec 16} {i j : Instr} (hr : withoutArgument h i = .ok j) :
    headerRsv h = 0#3 ∧ headerN h = 0#9 := by
  rw [withoutArgument] at hr
  split_ifs at hr with hrsv hn
  exact ⟨hrsv, hn⟩

/-- The opcode map reads nothing but a request's own header and argument (30 R80): no bit of them is ignored. -/
theorem headerRequest_ok {h : BitVec 16} {arg : List Byte} {i : Instr} (harg : arg.length = argCount h)
    (hr : headerRequest h arg = .ok i) : i.header = h ∧ i.argument = arg := by
  rw [headerRequest] at hr
  split at hr
  case h_1 hop | h_7 hop | h_11 hop | h_12 hop | h_13 hop | h_14 hop =>
    obtain ⟨hrsv, hn⟩ := fields_of_withoutArgument hr
    rw [withoutArgument_ok hr]
    exact ⟨headerOf_eq hop hrsv hn, (argument_eq_nil harg (.inr hn)).symm⟩
  case h_2 hop | h_3 hop | h_4 hop | h_5 hop | h_8 hop | h_9 hop | h_10 hop =>
    rw [withArgument_ok hr]
    exact ⟨headerOf_eq hop (headerRsv_of_withArgument hr) (headerN_eq_countOf harg (by omega)), rfl⟩
  case h_6 hop =>
    rw [withArgument_ok hr]
    exact ⟨headerOf_eq hop (headerRsv_of_withArgument hr) rfl, (argument_eq_nil harg (.inl hop)).symm⟩
  case h_15 hop =>
    cases hr
    exact ⟨headerOf_eq hop rfl (headerN_eq_countOf harg (by omega)), rfl⟩
  case h_16 =>
    have hop : (headerOp h).toNat = 0xF := by
      have := (headerOp h).isLt
      grind
    cases hr
    exact ⟨headerOf_eq hop rfl (headerN_eq_countOf harg (by omega)), rfl⟩

/-- Settles O2: what is decoded is a header and the argument it counts, and those are the request's own. -/
theorem decodeReadsOnlyEncodings : Obligations.DecodeReadsOnlyEncodings := by
  intro bytes rest i h
  obtain ⟨hd, arg, rfl, harg, hr⟩ := decode_request h
  obtain ⟨rfl, rfl⟩ := headerRequest_ok harg hr
  exact ⟨decode_wf h, rfl⟩

/-! ### The opcode table -/

/-- What a row's mask 0xFE00 compares: OP and RSV (30 R80). -/
theorem fields_of_argument_mask {h pattern : BitVec 16} (hc : h &&& 0xFE00#16 = pattern) :
    headerOp h = headerOp pattern ∧ headerRsv h = headerRsv pattern := by
  rw [← headerOf_fields h, show 0xFE00#16 = headerOf 0xF#4 7#3 0#9 by decide, headerOf_and] at hc
  subst hc
  have hop : headerOp h &&& 0xF#4 = headerOp h := BitVec.and_allOnes
  have hrsv : headerRsv h &&& 7#3 = headerRsv h := BitVec.and_allOnes
  simp [hop, hrsv]

/-- What a row's mask 0xF000 compares: OP alone (30 R80). -/
theorem headerOp_of_reserved_mask {h pattern : BitVec 16} (hc : h &&& 0xF000#16 = pattern) :
    headerOp h = headerOp pattern := by
  rw [← headerOf_fields h, Laws.reserved_header_masked] at hc
  subst hc
  simp

/-- Each row's mask and pattern is one branch of the opcode map (30 R80). -/
theorem headerRequest_of_covers {i : Instr} {h : BitVec 16} (hc : i.row.covers h = true) (arg : List Byte) :
    ∃ j, headerRequest h arg = .ok j ∧ j.row = i.row := by
  cases i <;> simp only [OpRow.covers, Instr.row, beq_iff_eq] at hc
  case nop | init | popOut | popBatch | status | sessionReset =>
    have hh : h &&& 0xFFFF#16 = h := BitVec.and_allOnes
    obtain rfl := hh.symm.trans hc
    exact ⟨_, rfl, rfl⟩
  case encode | decode | classify | event | catalog | deliver | extract | visualid =>
    obtain ⟨hop, hrsv⟩ := fields_of_argument_mask hc
    replace hrsv : headerRsv h = 0#3 := hrsv.trans (by decide)
    rw [headerRequest, hop]
    simp [Instr.row, headerOp, withArgument, hrsv]
  case reservedE | reservedF =>
    rw [headerRequest, headerOp_of_reserved_mask hc]
    simp [Instr.row, headerOp]

/-- A request's header is covered by its own row of the table (30 R80). -/
theorem Instr.row_covers_header (i : Instr) : i.row.covers i.header = true := by
  cases i with
  | nop => exact Laws.HeaderMatches.nop
  | encode cmd => exact Laws.HeaderMatches.encode cmd
  | decode f => exact Laws.HeaderMatches.decode f
  | classify f => exact Laws.HeaderMatches.classify f
  | event p => exact Laws.HeaderMatches.event p
  | catalog k => exact Laws.HeaderMatches.catalog k
  | init => exact Laws.HeaderMatches.init
  | deliver f => exact Laws.HeaderMatches.deliver f
  | extract b => exact Laws.HeaderMatches.extract b
  | visualid id => exact Laws.HeaderMatches.visualid id
  | popOut => exact Laws.HeaderMatches.popOut
  | popBatch => exact Laws.HeaderMatches.popBatch
  | status => exact Laws.HeaderMatches.status
  | sessionReset => exact Laws.HeaderMatches.sessionReset
  | reservedE rsv arg => exact Laws.HeaderMatches.reservedE rsv arg
  | reservedF rsv arg => exact Laws.HeaderMatches.reservedF rsv arg

theorem Instr.row_mem_opcodeTable (i : Instr) : i.row ∈ opcodeTable := by
  cases i <;> simp [opcodeTable, Instr.row]

/-- Settles O3: the row that covers a header names the branch of the opcode map; where no row covers it, no request has
that header. -/
theorem decodeFollowsOpcodeTable : Obligations.DecodeFollowsOpcodeTable := by
  intro h arg rest harg
  rw [decode_parts h arg rest harg]
  constructor
  · intro r hr hc
    obtain ⟨i, -, rfl⟩ := List.mem_map.mp hr
    obtain ⟨j, hj, hrow⟩ := headerRequest_of_covers hc arg
    obtain ⟨hheader, hargument⟩ := headerRequest_ok harg hj
    exact ⟨j, by rw [hj], hrow, hheader, hargument⟩
  · intro hnone
    cases hreq : headerRequest h arg with
    | error why => exact ⟨why, rfl⟩
    | ok i =>
      obtain ⟨hheader, -⟩ := headerRequest_ok harg hreq
      have hcovers := i.row_covers_header
      rw [hheader, hnone _ i.row_mem_opcodeTable] at hcovers
      cases hcovers

end Sys2Proof

namespace Sys2Proof.Machine

/-! ### Illegal and unfinished requests at the port -/

/-- Settles O7: the bytes decode as illegal, or to a request whose header is the illegal one, and of those only the
reserved opcodes have such a header. -/
theorem illegalRequestsAnswerIllegalOp : Obligations.IllegalRequestsAnswerIllegalOp := by
  intro h arg rest s harg hrx hillegal
  have hdecode := decode_parts h arg rest harg
  rw [← hrx] at hdecode
  cases hreq : headerRequest h arg with
  | error why =>
    rw [hreq] at hdecode
    exact step_illegal hdecode
  | ok i =>
    rw [hreq] at hdecode
    obtain ⟨rfl, -⟩ := headerRequest_ok harg hreq
    rw [stepRunsDecodedRequest s i rest hdecode]
    cases i
    case reservedE | reservedF => rfl
    all_goals simp [Instr.header] at hillegal

theorem step_incomplete {s : State} (h : decode s.rx = .incomplete) : step s = .next s := by
  simp only [step, h, State.await]

/-- Settles O6: the port holds no whole header, or not the whole argument. -/
theorem stepWaitsForWholeRequest : Obligations.StepWaitsForWholeRequest := by
  rintro s (hshort | ⟨h, body, hrx, hbody⟩)
  · apply step_incomplete
    match s.rx, hshort with
    | [], _ | [_], _ => rfl
  · apply step_incomplete
    rw [hrx, headerBytes, List.cons_append, List.cons_append, List.nil_append, decode, be16_bytes, if_pos hbody]

/-- Settles O4: the decoder evaluated on each word. -/
theorem sampleWordsDecode : Obligations.SampleWordsDecode := by
  unfold Obligations.SampleWordsDecode
  decide

end Sys2Proof.Machine
end

section
/-! The class of a frame (30_encoding.md R71, R86): one condition for each class code, and the bytes it depends on. -/

namespace Sys2Proof.Machine

theorem FrameClass.code_toNat_eq_iff {c d : FrameClass} : c.code.toNat = d.code.toNat ↔ c = d := by
  cases c <;> cases d <;> decide

theorem classByte_eq (c : FrameClass) : classByte c = BitVec.ofNat 8 c.code.toNat :=
  (BitVec.ofNat_toNat 8 c.code).symm

/-- A frame has an event code exactly when it has bytes 8 and 9 (40 R105). -/
theorem eventCode_payload_eq_ok_iff {f : List Byte} {e : BitVec 16} :
    eventCode (payload f) = .ok e ↔ ∃ h l, f[8]? = some h ∧ f[9]? = some l ∧ be16 h l = e := by
  rw [eventCode_payload]
  cases f[8]? <;> cases f[9]? <;> simp

theorem rfidClass_cases (c : Cfg) (f : List Byte) :
    rfidClass c f = .rfidTagRead ∨ rfidClass c f = .rfidCommandAck ∨ rfidClass c f = .rfidOther := by
  rw [rfidClass]
  cases eventCode (payload f) with
  | error k => simp
  | ok e => dsimp only; split_ifs <;> simp

theorem rfidClass_eq_tagRead_iff {c : Cfg} {f : List Byte} :
    rfidClass c f = .rfidTagRead ↔ eventCode (payload f) = .ok c.evtTagRead := by
  rw [rfidClass]
  cases eventCode (payload f) with
  | error k => simp
  | ok e =>
    simp only [Except.ok.injEq]
    split_ifs with htag hack <;> simp [htag]

/-- The two event codes of a well-formed configuration differ (00 R9), so the order of the tests does not matter. -/
theorem rfidClass_eq_commandAck_iff {c : Config} {f : List Byte} :
    rfidClass c.val f = .rfidCommandAck ↔ eventCode (payload f) = .ok c.val.evtCmd := by
  obtain ⟨-, hevt, -⟩ := configuration_constraints c
  rw [rfidClass]
  cases eventCode (payload f) with
  | error k => simp
  | ok e =>
    simp only [Except.ok.injEq]
    split_ifs with htag hack
    · simp [htag, hevt.symm]
    · simp [hack]
    · simp [hack]

theorem classify_eq_notification_iff {c : Cfg} {f : List Byte} :
    classify c f = .notification ↔ 8 ≤ f.length ∧ f[3]? = some c.destNotif := by
  rw [classify_eq]
  split_ifs with hn hr
  · simpa using hn
  · rcases rfidClass_cases c f with h | h | h <;> simpa [h] using hn
  · simpa using hn

theorem classify_of_rfid {c : Config} {f : List Byte} (hlen : 8 ≤ f.length) (hdest : f[3]? = some c.val.destRfid) :
    classify c.val f = rfidClass c.val f := by
  obtain ⟨hne, -⟩ := configuration_constraints c
  rw [classify_eq, if_neg (by simp [hdest, hne]), if_pos ⟨hlen, hdest⟩]

/-- The RFID classes are for frames with the RFID destination (30 R86). -/
theorem classify_eq_rfid_iff {c : Config} {f : List Byte} {k : FrameClass} (hn : k ≠ .notification)
    (hu : k ≠ .unclassified) :
    classify c.val f = k ↔ 8 ≤ f.length ∧ f[3]? = some c.val.destRfid ∧ rfidClass c.val f = k := by
  constructor
  · intro h
    have hcases := classify_eq c.val f
    rw [h] at hcases
    split_ifs at hcases with hnotif hrfid
    · exact absurd hcases hn
    · exact ⟨hrfid.1, hrfid.2, hcases.symm⟩
    · exact absurd hcases hu
  · rintro ⟨hlen, hdest, h⟩
    rw [classify_of_rfid hlen hdest, h]

theorem classify_eq_unclassified_iff {c : Cfg} {f : List Byte} :
    classify c f = .unclassified ↔
      ¬ (8 ≤ f.length ∧ (f[3]? = some c.destNotif ∨ f[3]? = some c.destRfid)) := by
  rw [classify_eq]
  split_ifs with hn hr
  · simp [hn]
  · rcases rfidClass_cases c f with h | h | h <;> simp [h, hr]
  · tauto

/-- A frame with an event code has at least 10 bytes. -/
theorem rfid_event_iff {f : List Byte} {d : Byte} {e : BitVec 16} :
    (8 ≤ f.length ∧ f[3]? = some d ∧ eventCode (payload f) = .ok e) ↔
      10 ≤ f.length ∧ f[3]? = some d ∧ ∃ h l, f[8]? = some h ∧ f[9]? = some l ∧ be16 h l = e := by
  rw [eventCode_payload_eq_ok_iff]
  constructor
  · rintro ⟨-, hd, h, l, h8, h9, he⟩
    obtain ⟨hlen, -⟩ := List.getElem?_eq_some_iff.mp h9
    exact ⟨hlen, hd, h, l, h8, h9, he⟩
  · rintro ⟨hlen, hd, he⟩
    exact ⟨by omega, hd, he⟩

/-- Settles O13: each row of the class table is the condition of one class, and the codes of the classes are distinct. -/
theorem classifyFollowsClassTable : Obligations.ClassifyFollowsClassTable := by
  intro s f
  have hcode (k : FrameClass) := FrameClass.code_toNat_eq_iff (c := classify s.cfg.val f) (d := k)
  refine ⟨(classify s.cfg.val f).code.toNat, rfl, ?_, ?_, ?_, ?_, ?_, ?_, FrameClass.code_le _⟩
  · rw [← classByte_eq]
    rfl
  · exact (hcode .notification).trans classify_eq_notification_iff
  · rw [← rfid_event_iff, ← rfidClass_eq_commandAck_iff, ← classify_eq_rfid_iff (by decide) (by decide)]
    exact hcode .rfidCommandAck
  · rw [← rfid_event_iff, ← rfidClass_eq_tagRead_iff, ← classify_eq_rfid_iff (by decide) (by decide)]
    exact hcode .rfidTagRead
  · refine (hcode .rfidOther).trans ⟨fun h => ?_, ?_⟩
    · obtain ⟨hlen, hdest, -⟩ := (classify_eq_rfid_iff (by decide) (by decide)).mp h
      rw [h]
      exact ⟨hlen, hdest, by decide, by decide⟩
    · rintro ⟨hlen, hdest, hack, htag⟩
      rw [classify_of_rfid hlen hdest] at hack htag ⊢
      rcases rfidClass_cases s.cfg.val f with h | h | h
      · exact absurd (by rw [h]; rfl) htag
      · exact absurd (by rw [h]; rfl) hack
      · exact h
  · exact (hcode .unclassified).trans classify_eq_unclassified_iff

/-- Settles O14: the class is decided by the length, the destination at byte 3, and the event code at bytes 8 and 9. -/
theorem classifyReadsThreeBytes : Obligations.ClassifyReadsThreeBytes := by
  intro s f g hlen h3 h8 h9
  have hclass : classify s.cfg.val f = classify s.cfg.val g := by
    simp only [classify_eq, rfidClass, eventCode_payload, hlen, h3, h8, h9]
  refine ⟨_, rfl, ?_⟩
  simp only [exec, execClassify, hclass]

end Sys2Proof.Machine
end

section
/-! The images of records and batches (30_encoding.md R83, R84): their layout, their size, and that nothing is lost. -/

namespace Sys2Proof.Machine

/-! ### Layout -/

theorem bytesBe_one (v : Nat) : bytesBe v 1 = [BitVec.ofNat 8 v] := by
  simp [bytesBe]

theorem ofNat_toNat_bool (b : Bool) : BitVec.ofNat 8 b.toNat = if b then 0x01#8 else 0x00#8 := by
  cases b <;> rfl

/-- Byte k of a word is its value divided by 256^k, as the encoding takes it. -/
theorem ofNat_div_eq_extractLsb' {w : Nat} (v : BitVec w) (k : Nat) :
    BitVec.ofNat 8 (v.toNat / 256 ^ k) = v.extractLsb' (8 * k) 8 := by
  apply BitVec.eq_of_toNat_eq
  simp [Nat.shiftRight_eq_div_pow, pow_mul]

/-- The eight bytes of a 64-bit value, high byte first. -/
theorem bytesBe_eight (v : BitVec 64) : bytesBe v.toNat 8 =
    [v.extractLsb' 56 8, v.extractLsb' 48 8, v.extractLsb' 40 8, v.extractLsb' 32 8,
      v.extractLsb' 24 8, v.extractLsb' 16 8, v.extractLsb' 8 8, v.extractLsb' 0 8] := by
  simp only [bytesBe, ofNat_div_eq_extractLsb']

theorem TagRecord.image_eq (r : TagRecord) :
    r.image = [r.pc.extractLsb' 8 8, r.pc.extractLsb' 0 8, BitVec.ofNat 8 r.id.length] ++ r.id
      ++ [r.rssi, if r.vidValid then 0x01#8 else 0x00#8]
      ++ [r.vid.extractLsb' 56 8, r.vid.extractLsb' 48 8, r.vid.extractLsb' 40 8, r.vid.extractLsb' 32 8,
          r.vid.extractLsb' 24 8, r.vid.extractLsb' 16 8, r.vid.extractLsb' 8 8, r.vid.extractLsb' 0 8] := by
  simp only [TagRecord.image, bytesBe_two, bytesBe_one, ofNat_toNat_bool, bytesBe_eight, List.append_assoc,
    List.cons_append, List.nil_append]

/-! ### Size -/

@[simp] theorem TagRecord.image_length (r : TagRecord) : r.image.length = 13 + r.id.length := by
  simp [TagRecord.image]
  omega

theorem flatMap_image_length (rs : List TagRecord) :
    (rs.flatMap TagRecord.image).length = 10 * rs.length + (rs.map (fun r => 3 + r.id.length)).sum := by
  induction rs with
  | nil => rfl
  | cons r rs ih =>
    simp only [List.flatMap_cons, List.length_append, TagRecord.image_length, ih, List.length_cons, List.map_cons,
      List.sum_cons]
    omega

/-- A record's image is 10 bytes longer than the input it came from. -/
theorem Batch.image_length (b : Batch) : b.image.length = 3 + (10 * b.records.length + b.inputSize) := by
  simp only [Batch.image, Batch.inputSize, List.length_append, bytesBe_length, List.length_singleton,
    flatMap_image_length]

/-- A legal record takes an odd number of input bytes, since its identifier has even length (43 R173). -/
theorem Batch.Legal.inputSize_parity {b : Batch} (h : b.Legal) : b.inputSize % 2 = b.records.length % 2 := by
  obtain ⟨-, -, hrecords⟩ := h
  rw [Batch.inputSize]
  revert hrecords
  induction b.records with
  | nil => exact fun _ => rfl
  | cons r rs ih =>
    intro hrecords
    obtain ⟨hr, hrs⟩ := List.forall_mem_cons.mp hrecords
    have heven := hr.id_length.2
    have := ih hrs
    simp only [List.map_cons, List.sum_cons, List.length_cons]
    omega

/-- 1365 records of three bytes leave one byte of 4096, and no legal record is one byte longer. -/
theorem Batch.Legal.image_length_le {b : Batch} (h : b.Legal) (hsize : b.inputSize ≤ 4096) :
    b.image.length ≤ 17748 := by
  have hparity := h.inputSize_parity
  have hcount := b.three_mul_records_le
  rw [Batch.image_length]
  omega

/-- Settles O41: the layout and the sizes above, and 1365 records without identifier come out of 4095 bytes. -/
theorem recordImageLayout : Obligations.RecordImageLayout := by
  refine ⟨fun r _ => ⟨r.image_eq, r.image_length⟩, fun _ => rfl, fun _ => by simp [Batch.image, bytesBe],
    fun _ => Batch.Legal.image_length_le, ?_⟩
  intro b hcount hids
  have hsize : b.inputSize = 3 * b.records.length := by
    rw [Batch.inputSize, List.map_congr_left (g := fun _ => 3) (fun r hr => by simp [hids r hr])]
    simp [Nat.mul_comm]
  rw [Batch.image_length, hsize, hcount]

/-! ### Losslessness -/

theorem Status.code_inj {k l : Status} : k.code = l.code ↔ k = l := by
  cases k <;> cases l <;> decide

/-- Two bytes hold a 16-bit value exactly (30 R82, R83). -/
theorem bytesBe_two_exact {v : Nat} (h : v < 2 ^ 16) :
    ∃ hi lo, bytesBe v 2 = [hi, lo] ∧ (be16 hi lo).toNat = v := by
  have hv : (BitVec.ofNat 16 v).toNat = v := Nat.mod_eq_of_lt h
  exact ⟨_, _, hv ▸ bytesBe_two (BitVec.ofNat 16 v), by rw [be16_bytes, hv]⟩

theorem bytesBe_two_inj {v w : Nat} (hv : v < 2 ^ 16) (hw : w < 2 ^ 16) (h : bytesBe v 2 = bytesBe w 2) : v = w := by
  obtain ⟨hi, lo, hbytes, rfl⟩ := bytesBe_two_exact hv
  obtain ⟨hi', lo', hbytes', rfl⟩ := bytesBe_two_exact hw
  rw [hbytes, hbytes'] at h
  cases h
  rfl

theorem TagRecord.Legal.eq_makeRecord {r : TagRecord} (h : r.Legal) : r = makeRecord r.pc r.id r.rssi := by
  obtain ⟨-, -, hvid⟩ := h
  rw [makeRecord, ← hvid]

/-- A legal record can be read back from the front of its image: the product code gives the identifier's length, and the
identifier the visual ID. -/
theorem TagRecord.Legal.image_append_inj {r q : TagRecord} (hr : r.Legal) (hq : q.Legal) {x y : List Byte}
    (h : r.image ++ x = q.image ++ y) : r = q ∧ x = y := by
  have ⟨_, hrlen, _⟩ := hr
  have ⟨_, hqlen, _⟩ := hq
  simp only [TagRecord.image, List.append_assoc] at h
  obtain ⟨hpcBytes, h⟩ := List.append_inj h (by simp)
  obtain ⟨-, h⟩ := List.append_inj h (by simp)
  have hpc : r.pc = q.pc := BitVec.eq_of_toNat_eq (bytesBe_two_inj r.pc.isLt q.pc.isLt hpcBytes)
  obtain ⟨hid, h⟩ := List.append_inj h (by rw [hrlen, hqlen, hpc])
  obtain ⟨hrssi, h⟩ := List.append_inj h rfl
  obtain ⟨-, h⟩ := List.append_inj h (by simp)
  obtain ⟨-, h⟩ := List.append_inj h (by simp)
  refine ⟨?_, h⟩
  rw [hr.eq_makeRecord, hq.eq_makeRecord, hpc, hid, List.singleton_inj.mp hrssi]

/-- As many legal records as the count says can be read back from their images. -/
theorem flatMap_image_inj {rs qs : List TagRecord} (hrs : ∀ r ∈ rs, r.Legal) (hqs : ∀ q ∈ qs, q.Legal)
    (hcount : rs.length = qs.length) (h : rs.flatMap TagRecord.image = qs.flatMap TagRecord.image) : rs = qs := by
  induction rs generalizing qs with
  | nil => exact (List.length_eq_zero_iff.mp hcount.symm).symm
  | cons r rs ih =>
    obtain ⟨q, qtail, rfl⟩ := List.exists_cons_of_length_eq_add_one hcount.symm
    obtain ⟨hr, hrtail⟩ := List.forall_mem_cons.mp hrs
    obtain ⟨hq, hqtail⟩ := List.forall_mem_cons.mp hqs
    rw [List.flatMap_cons, List.flatMap_cons] at h
    obtain ⟨hhead, htail⟩ := hr.image_append_inj hq h
    rw [hhead, ih hrtail hqtail (Nat.succ.inj hcount) htail]

/-- Settles O42: the image gives the status, then the number of records, then one record after another. -/
theorem batchImageLossless : Obligations.BatchImageLossless := by
  rintro ⟨k, rs⟩ ⟨l, qs⟩ ⟨-, -, hrs⟩ ⟨-, -, hqs⟩ hra hqa h
  simp only [Batch.image, List.append_assoc] at h
  obtain ⟨hcode, h⟩ := List.append_inj h rfl
  obtain ⟨hcount, h⟩ := List.append_inj h (by simp)
  have hlen : rs.length = qs.length := bytesBe_two_inj hra hqa hcount
  rw [Status.code_inj.mp (List.singleton_inj.mp hcode), show rs = qs from flatMap_image_inj hrs hqs hlen h]

end Sys2Proof.Machine
end

section
/-! The responses (30_encoding.md R82): their data and status, and the bytes the host reads. -/

namespace Sys2Proof.Machine

/-- What a response to i keeps to (30 R82, R84): the largest data is a batch image's, and an error has no data unless it
is an extraction's. -/
def Instr.MayAnswer (i : Instr) (r : Response) : Prop :=
  r.data.length ≤ 17748 ∧ (r.status ≠ .ok → (∀ b, i ≠ .extract b) → r.data = [])

theorem Instr.mayAnswer_empty (i : Instr) (k : Status) : Instr.MayAnswer i ⟨k, []⟩ :=
  ⟨Nat.zero_le _, fun _ _ => rfl⟩

theorem Instr.mayAnswer_ok (i : Instr) {data : List Byte} (h : data.length ≤ 17748) :
    Instr.MayAnswer i ⟨.ok, data⟩ :=
  ⟨h, fun hne => absurd rfl hne⟩

/-- An extracted batch is legal and came out of one argument, so its image is within R84's bound. -/
theorem extractBatch_image_length_le {b : List Byte} (h : b.length ≤ frameMax) :
    (extractBatch b).image.length ≤ 17748 := by
  have hsize := extractBatch_inputSize_le b
  rw [frameMax] at h
  exact (extractBatch_legal b).image_length_le (by omega)

theorem outboundFrame_length (c : Cfg) (cmd : List Byte) : (outboundFrame c cmd).length = 8 + cmd.length := by
  rw [outboundFrame, List.length_append]
  rfl

theorem decodeFrame_length_le {f data : List Byte} (h : decodeFrame f = .ok data) : data.length ≤ f.length + 1 := by
  rw [decodeFrame] at h
  split_ifs at h
  cases h
  simp only [payload, List.length_append, List.length_take, List.length_drop]
  omega

/-- What every well-formed request answers in a legal state. -/
theorem exec_mayAnswer {i : Instr} {s : State} (hs : s.Inv) (hi : i.wf = true) :
    ∃ t r, exec i s = .next t ∧ t.response = some r ∧ Instr.MayAnswer i r := by
  cases i with
  | nop | sessionReset | reservedE | reservedF => exact ⟨_, _, rfl, rfl, Instr.mayAnswer_empty _ _⟩
  | encode cmd =>
    have hcmd : cmd.length ≤ 511 := of_decide_eq_true hi
    exact ⟨_, _, rfl, rfl, Instr.mayAnswer_ok _ (by rw [outboundFrame_length]; omega)⟩
  | decode f =>
    have hf : f.length ≤ 511 := of_decide_eq_true hi
    simp only [exec, execDecode]
    cases hd : decodeFrame f with
    | error k => exact ⟨_, _, rfl, rfl, Instr.mayAnswer_empty _ k⟩
    | ok data =>
      have := decodeFrame_length_le hd
      exact ⟨_, _, rfl, rfl, Instr.mayAnswer_ok _ (by omega)⟩
  | classify f => exact ⟨_, _, rfl, rfl, Instr.mayAnswer_ok _ (by simp)⟩
  | event p =>
    simp only [exec, execEvent]
    cases eventCode p with
    | error k => exact ⟨_, _, rfl, rfl, Instr.mayAnswer_empty _ k⟩
    | ok e => exact ⟨_, _, rfl, rfl, Instr.mayAnswer_ok _ (by simp)⟩
  | catalog k =>
    have hlen := catalogEntry_length s.cfg k.toNat
    simp only [exec, execCatalog]
    split
    · exact ⟨_, _, rfl, rfl, Instr.mayAnswer_empty _ _⟩
    · exact ⟨_, _, rfl, rfl, Instr.mayAnswer_ok _ (by omega)⟩
  | init =>
    simp only [exec, execInit]
    split <;> exact ⟨_, _, rfl, rfl, Instr.mayAnswer_empty _ _⟩
  | deliver f =>
    simp only [exec, execDeliver]
    split
    · exact ⟨_, _, rfl, rfl, Instr.mayAnswer_empty _ _⟩
    · exact ⟨_, _, rfl, rfl, Instr.mayAnswer_ok _ (by simp)⟩
  | extract b =>
    have hlen := extractBatch_image_length_le (of_decide_eq_true hi)
    exact ⟨_, _, rfl, rfl, hlen, fun _ hne => absurd rfl (hne b)⟩
  | visualid id => exact ⟨_, _, rfl, rfl, Instr.mayAnswer_ok _ (by simp)⟩
  | popOut =>
    simp only [exec, execPopOut]
    cases hq : s.outq with
    | nil => exact ⟨_, _, rfl, rfl, Instr.mayAnswer_empty _ _⟩
    | cons frame rest =>
      have hframe := hs.outq_frames frame (hq ▸ List.mem_cons_self)
      exact ⟨_, _, rfl, rfl, Instr.mayAnswer_ok _ (by omega)⟩
  | popBatch =>
    simp only [exec, execPopBatch]
    cases hq : s.batchq with
    | nil => exact ⟨_, _, rfl, rfl, Instr.mayAnswer_empty _ _⟩
    | cons b rest =>
      have hmem : b ∈ s.batchq := hq ▸ List.mem_cons_self
      obtain ⟨-, -, -, -, -, -, -, -, hcap, -⟩ := configuration_constraints s.cfg
      have hlen := (hs.batchq_legal b hmem).image_length_le ((hs.batchq_bounded b hmem).trans hcap)
      exact ⟨_, _, rfl, rfl, Instr.mayAnswer_ok _ hlen⟩
  | status => exact ⟨_, _, rfl, rfl, Instr.mayAnswer_ok _ (by simp [State.statusImage])⟩

/-- Settles O52: the data of every answer is short enough for its length to be exact in two bytes. -/
theorem responsesFitTheirLength : Obligations.ResponsesFitTheirLength := by
  intro i s hs hi
  obtain ⟨t, r, ht, hr, hlen, herror⟩ := exec_mayAnswer hs hi
  obtain ⟨high, low, hbytes, hvalue⟩ := bytesBe_two_exact (v := r.data.length) (by omega)
  refine ⟨t, r, high, low, ht, hr, hlen, herror, ?_, hvalue, ?_⟩
  · rw [Response.image, hbytes]
    rfl
  · rw [State.responseBytes, hr]
    rfl

end Sys2Proof.Machine
end

section
/-! The frame codec (40_frame_codec.md R100 to R108): building a frame, splitting it, its event code, and the round trip. -/

namespace Sys2Proof.Machine

/-! ### An outbound frame is read as it was built (30 R70, R72) -/

@[simp] theorem payload_outboundFrame (c : Cfg) (cmd : List Byte) : payload (outboundFrame c cmd) = cmd := rfl

theorem outboundFrame_destination (c : Cfg) (cmd : List Byte) : (outboundFrame c cmd)[3]? = some c.destRfid := rfl

/-! ### Splitting a frame, and the event code of a payload (40 R101, R105) -/

theorem decodeFrame_of_short {f : List Byte} (h : f.length < 8) : decodeFrame f = .error .truncatedFrame :=
  if_pos h

theorem decodeFrame_of_whole {f : List Byte} (h : 8 ≤ f.length) : decodeFrame f = .ok (f[3] :: f.drop 8) := by
  have htail : f.drop 3 = f[3] :: f.drop 4 := List.drop_eq_getElem_cons (by omega)
  rw [decodeFrame, hdrLen, destOfs, if_neg (Nat.not_lt.mpr h), htail]
  rfl

theorem decodeFrame_outboundFrame (c : Cfg) (cmd : List Byte) :
    decodeFrame (outboundFrame c cmd) = .ok (c.destRfid :: cmd) :=
  decodeFrame_of_whole (by rw [outboundFrame_length]; omega)

theorem eventCode_of_short {p : List Byte} (h : p.length < 2) : eventCode p = .error .truncatedFrame := by
  match p, h with
  | [], _ | [_], _ => rfl

theorem eventCode_cons_cons (h l : Byte) (tl : List Byte) : eventCode (h :: l :: tl) = .ok (be16 h l) := rfl

/-! ### The requests (40 R100, R101, R106) -/

/-- Settles O11: the encoding and the frame are their definitions written out. -/
theorem encodeBuildsFrame : Obligations.EncodeBuildsFrame :=
  fun _ _ => ⟨rfl, rfl⟩

/-- Settles O12: DECODE answers what splitting the frame gives. -/
theorem decodeSplitsFrame : Obligations.DecodeSplitsFrame := by
  refine fun s f => ⟨rfl, fun h => ?short, fun h => ?whole⟩
  case short =>
    rw [exec, execDecode, decodeFrame_of_short h]
    rfl
  case whole =>
    rw [exec, execDecode, decodeFrame_of_whole h]
    rfl

/-- Settles O15: the payload has an event code exactly when it has two bytes, and those are the code's bytes. -/
theorem eventReadsCode : Obligations.EventReadsCode := by
  refine fun s p => ⟨rfl, fun h => ?short, fun h => ?whole⟩
  case short =>
    rw [exec, execEvent, eventCode_of_short h]
    rfl
  case whole =>
    match p, h with
    | hi :: lo :: tl, _ =>
      rw [exec, execEvent, eventCode_cons_cons]
      dsimp only
      rw [bytesBe_be16]
      rfl

/-! ### What ENCODE answers, decoded and classified (40 R107, R108) -/

/-- Settles O16: the header adds 8 bytes, so 503 bytes of command still fit a request, and splitting the frame takes the
header off again. -/
theorem encodeDecodeRecoversCommand : Obligations.EncodeDecodeRecoversCommand := by
  intro s cmd hcmd
  have hfits : (outboundFrame s.cfg.val cmd).length ≤ 511 := by
    rw [outboundFrame_length]
    omega
  refine ⟨_, _, outboundFrame s.cfg.val cmd, rfl, rfl, decide_eq_true hfits, rfl, ?_⟩
  rw [decodeFrame_outboundFrame]
  rfl

/-- An outbound frame is an RFID frame, whose class is decided by the event code of its command (40 R103). -/
theorem classify_outboundFrame (c : Config) (cmd : List Byte) :
    classify c.val (outboundFrame c.val cmd) = rfidClass c.val (outboundFrame c.val cmd) :=
  classify_of_rfid (by rw [outboundFrame_length]; omega) (outboundFrame_destination c.val cmd)

/-- Settles O17: the class is that of an RFID frame, and the event code is read from the command. -/
theorem encodedFramesClassifyByCommand : Obligations.EncodedFramesClassifyByCommand := by
  refine fun s cmd => ⟨_, outboundFrame s.cfg.val cmd, rfl, rfl, fun hshort => ?short, ?coded⟩
  case short =>
    rw [classify_outboundFrame, rfidClass, payload_outboundFrame, eventCode_of_short hshort]
  case coded =>
    rintro h l tl rfl
    rw [classify_outboundFrame, rfidClass, payload_outboundFrame, eventCode_cons_cons]

end Sys2Proof.Machine
end

section
/-! The command catalog (41_command_catalog.md R120 to R123): reading an entry, and queueing the initialization sequence. -/

namespace Sys2Proof.Machine

/-! ### CATALOG (41 R122) -/

theorem exec_catalog_of_le {s : State} {k : BitVec 9} (h : k.toNat ≤ s.cfg.val.nInit + 1) :
    exec (.catalog k) s = .next (s.respond .ok (catalogEntry s.cfg.val k.toNat)) := by
  rw [exec, execCatalog, abortIdx, if_neg (Nat.not_lt.mpr h)]

theorem exec_catalog_of_gt {s : State} {k : BitVec 9} (h : s.cfg.val.nInit + 1 < k.toNat) :
    exec (.catalog k) s = .next (s.raise .badIndex) := by
  rw [exec, execCatalog, abortIdx, if_pos h]

/-- Settles O19: the catalog of a well-formed configuration has an entry for every index up to N_INIT + 1. -/
theorem catalogReadsEntry : Obligations.CatalogReadsEntry :=
  fun s _ => ⟨rfl, fun hk => ⟨_, catalogEntry_get s.cfg hk, exec_catalog_of_le hk⟩, exec_catalog_of_gt⟩

/-! ### INIT (41 R123) -/

/-- The initialization sequence, entry by entry, is the front of the catalog (41 R120). -/
theorem map_catalogEntry_range (c : Config) :
    (List.range c.val.nInit).map (catalogEntry c.val) = c.val.catalog.take c.val.nInit := by
  refine List.ext_getElem? fun k => ?_
  rcases Nat.lt_or_ge k c.val.nInit with hk | hk
  · rw [List.getElem?_take_of_lt hk, catalogEntry_get c (Nat.le_succ_of_le hk.le)]
    simp [hk]
  · rw [List.getElem?_take_eq_none hk]
    simpa using hk

theorem initFrames_eq (c : Config) :
    initFrames c.val = (c.val.catalog.take c.val.nInit).map (outboundFrame c.val) := by
  rw [← map_catalogEntry_range, List.map_map]
  rfl

theorem exec_init_of_room {s : State} (h : s.outq.length + s.cfg.val.nInit ≤ s.cfg.val.outDepth) :
    exec .init s = .next ((s.pushOut (initFrames s.cfg.val)).respond .ok []) := by
  rw [exec, execInit, if_neg (Nat.not_lt.mpr h)]

theorem exec_init_of_full {s : State} (h : s.cfg.val.outDepth < s.outq.length + s.cfg.val.nInit) :
    exec .init s = .next (s.raise .busy) := by
  rw [exec, execInit, if_pos h]

/-- Settles O20: the free entries of OUTQ, an integer difference, decide as the model's comparison of sums does. -/
theorem initQueuesWholeSequence : Obligations.InitQueuesWholeSequence := by
  refine fun s => ⟨rfl, fun hroom => ?room, fun hfull => exec_init_of_full (by omega)⟩
  case room =>
    rw [exec_init_of_room (by omega), initFrames_eq]
    rfl

end Sys2Proof.Machine
end

section
/-! The stream reassembler (42_stream_reassembler.md R140 to R151): the complete next state of a DELIVER in each of its
cases, what a delivery can push, and reassembly over any sequence of chunks. -/

namespace Sys2Proof.Machine

/-! ### The two FIFOs: Busy or not (42 R143) -/

theorem State.hasRoom_iff (s : State) : s.HasRoom ↔ (s.outFull || s.batchFull) = false := by
  simp [State.outFull, State.batchFull]

/-- Settles O22: a full FIFO is all that DELIVER looks at before it raises Busy. -/
theorem deliverBusyChangesNothing : Obligations.DeliverBusyChangesNothing := by
  intro s f hfull
  have hbusy : (s.outFull || s.batchFull) = true := by simpa [State.outFull, State.batchFull] using hfull
  rw [exec, execDeliver, if_pos hbusy]
  rfl

/-! ### A classified delivery (42 R142, R144 to R146) -/

theorem triggerFrames_length (c : Cfg) (f : List Byte) :
    (triggerFrames c f).length = (dispatchCommand c f).isSome.toNat := by
  rw [← dispatchCommand_frames]
  cases dispatchCommand c f <;> rfl

/-- The outbound frames the class action pushes: a notification's trigger frames, and none otherwise. -/
def actionFrames (cfg : Cfg) (c : FrameClass) (f : List Byte) : List (List Byte) :=
  if c = .notification then triggerFrames cfg f else []

/-- The class action reports an emission exactly when it pushes a frame, and it pushes at most one. -/
theorem actionFrames_length (c : FrameClass) (f : List Byte) (s : State) :
    (actionFrames s.cfg.val c f).length = (classAction c f s).1.toNat := by
  cases c with
  | notification => rw [classAction, dispatch_eq, ← triggerFrames_length]; rfl
  | rfidTagRead | rfidCommandAck | rfidOther | unclassified => rfl

theorem actionFrames_cases (cfg : Cfg) (c : FrameClass) (f : List Byte) :
    actionFrames cfg c f = [] ∨ ∃ frame, actionFrames cfg c f = [frame] := by
  rw [actionFrames, ← dispatchCommand_frames]
  split
  · cases dispatchCommand cfg f with
    | none => exact .inl rfl
    | some cmd => exact .inr ⟨_, rfl⟩
  · exact .inl rfl

/-- The class action, field by field: BUF for a tag read, OUTQ for a notification, ACK_COUNT for an acknowledgment. -/
theorem classAction_state (c : FrameClass) (f : List Byte) (s : State) :
    (classAction c f s).2 = { s with
      buf := if c = .rfidTagRead then f else s.buf
      outq := s.outq ++ actionFrames s.cfg.val c f
      ackCount := if c = .rfidCommandAck then s.ackCount + 1#16 else s.ackCount } := by
  cases c with
  | notification => rw [classAction, dispatch_eq, dispatchCommand_frames]; rfl
  | rfidTagRead | rfidCommandAck | rfidOther | unclassified =>
    simp [classAction, actionFrames, State.bufSet, State.countAck]

/-- The complete next state of a classified delivery, in terms of the flush that comes first (42 R142). -/
theorem exec_deliver_of_classified {s : State} {f : List Byte} {c : FrameClass} (hroom : s.HasRoom)
    (hc : classify s.cfg.val f = c) (hclass : c ≠ .unclassified) :
    exec (.deliver f) s = .next { (flush s).2 with
      buf := if c = .rfidTagRead then f else []
      outq := s.outq ++ actionFrames s.cfg.val c f
      ackCount := if c = .rfidCommandAck then s.ackCount + 1#16 else s.ackCount
      lastClass := c.code
      response := some ⟨.ok, [BitVec.ofNat 8
        (c.code.toNat + 8 * (flush s).1.toNat + 16 * (actionFrames s.cfg.val c f).length)]⟩ } := by
  have hframes := actionFrames_length c f (flush s).2
  rw [flush_cfg] at hframes
  rw [exec, execDeliver_accepted (s.hasRoom_iff.mp hroom), acceptDelivery, hc, takeDelivery, if_neg hclass, takeFrame,
    finishDelivery, deliverByte, classAction_state, hframes]
  simp [State.noteClass, State.respond, flush_buf]

/-- Settles O23: in Idle the flush does nothing. -/
theorem deliverFrameWhenIdle : Obligations.DeliverFrameWhenIdle := by
  intro s f c hroom hc hclass hidle
  rw [exec_deliver_of_classified hroom hc hclass, flush_idle hidle]
  rfl

/-- Settles O24: in Accumulating the flush pushes the batch extracted from the buffer. -/
theorem deliverFrameWhenAccumulating : Obligations.DeliverFrameWhenAccumulating := by
  intro s f c hroom hc hclass hbuf
  rw [exec_deliver_of_classified hroom hc hclass, flush_accumulating hbuf]
  rfl

/-! ### A continuation chunk (42 R147, R148) -/

theorem exec_deliver_of_fits {s : State} {f : List Byte} (hroom : s.HasRoom)
    (hc : classify s.cfg.val f = .unclassified) (hfits : s.buf.length + f.length ≤ s.cfg.val.bufCap) :
    exec (.deliver f) s = .next { s with
      buf := s.buf ++ f
      lastClass := 4#3
      response := some ⟨.ok, [0x04#8]⟩ } := by
  rw [exec, execDeliver_accepted (s.hasRoom_iff.mp hroom), acceptDelivery, hc, takeDelivery, if_pos rfl, takeChunk,
    if_neg (Nat.not_lt.mpr hfits)]
  rfl

theorem exec_deliver_of_overflow {s : State} {f : List Byte} (hroom : s.HasRoom)
    (hc : classify s.cfg.val f = .unclassified) (hover : s.cfg.val.bufCap < s.buf.length + f.length) :
    exec (.deliver f) s = .next { s with
      buf := []
      batchq := s.batchq ++ [⟨.bufferOverflow, []⟩]
      lastFlush := 0x03#8
      discardCount := s.discardCount + 1#16
      lastClass := 4#3
      response := some ⟨.ok, [0x0C#8]⟩ } := by
  rw [exec, execDeliver_accepted (s.hasRoom_iff.mp hroom), acceptDelivery, hc, takeDelivery, if_pos rfl, takeChunk,
    if_pos hover]
  rfl

/-- Settles O25: BUF_CAP decides between the two next states of a chunk. -/
theorem deliverChunkEffect : Obligations.DeliverChunkEffect :=
  fun _ _ hroom hc => ⟨exec_deliver_of_fits hroom hc, exec_deliver_of_overflow hroom hc⟩

/-! ### What a delivery pushes (42 R149, R151) -/

/-- A flush pushes nothing, or one batch result that has no records when it failed. -/
theorem flush_batchq (s : State) : (flush s).2.batchq = s.batchq ∨
    ∃ b : Batch, (flush s).2.batchq = s.batchq ++ [b] ∧ (b.status ≠ .ok → b.records = []) := by
  by_cases hbuf : s.buf = []
  · exact .inl (by rw [flush_idle hbuf])
  · obtain ⟨-, hfailed, -⟩ := extractBatch_legal (s.buf.drop s.cfg.val.flushSkip)
    exact .inr ⟨_, by rw [flush_accumulating hbuf]; rfl, hfailed⟩

/-- A delivery pushes at most one batch result, failed ones without records, and then nothing of the old buffer is left;
and it pushes at most one outbound frame. -/
theorem exec_deliver_pushes (s : State) (f : List Byte) : ∃ t, exec (.deliver f) s = .next t ∧
    (t.batchq = s.batchq ∨
      (t.buf = [] ∨ (classify s.cfg.val f = .rfidTagRead ∧ t.buf = f)) ∧
      ∃ b, t.batchq = s.batchq ++ [b] ∧ (b.status ≠ .ok → b.records = [])) ∧
    (t.outq = s.outq ∨ ∃ frame, t.outq = s.outq ++ [frame]) := by
  by_cases hroom : s.HasRoom
  · by_cases hc : classify s.cfg.val f = .unclassified
    · rcases Nat.lt_or_ge s.cfg.val.bufCap (s.buf.length + f.length) with hover | hfits
      · exact ⟨_, exec_deliver_of_overflow hroom hc hover, .inr ⟨.inl rfl, _, rfl, fun _ => rfl⟩, .inl rfl⟩
      · exact ⟨_, exec_deliver_of_fits hroom hc hfits, .inl rfl, .inl rfl⟩
    · refine ⟨_, exec_deliver_of_classified hroom rfl hc, (flush_batchq s).imp_right (.intro ?buf), ?outq⟩
      case buf =>
        by_cases htag : classify s.cfg.val f = .rfidTagRead
        · exact .inr ⟨htag, if_pos htag⟩
        · exact .inl (if_neg htag)
      case outq =>
        obtain hnone | ⟨frame, hone⟩ := actionFrames_cases s.cfg.val (classify s.cfg.val f) f
        · exact .inl (by simp [hnone])
        · exact .inr ⟨frame, by simp [hone]⟩
  · have hfull : s.outq.length = s.cfg.val.outDepth ∨ s.batchq.length = s.cfg.val.batchDepth := by
      simpa only [not_and_or, not_not] using hroom
    exact ⟨_, deliverBusyChangesNothing s f hfull, .inl rfl, .inl rfl⟩

/-- Settles O29, by `exec_deliver_pushes`. -/
theorem oneEntryPerDelivery : Obligations.OneEntryPerDelivery := by
  intro s f
  obtain ⟨t, ht, hbatch, hout⟩ := exec_deliver_pushes s f
  exact ⟨t, ht, hbatch.imp_right fun ⟨_, b, hb, _⟩ => ⟨b, hb⟩, hout⟩

/-- Settles O30: flush and overflow clear the buffer; the class action after a flush buffers at most the new frame. -/
theorem noPartialStateAfterFlush : Obligations.NoPartialStateAfterFlush := by
  refine ⟨fun s => ⟨flush_buf s, rfl⟩, fun s f => ?_⟩
  obtain ⟨t, ht, hbatch, -⟩ := exec_deliver_pushes s f
  exact ⟨t, ht, hbatch.resolve_left⟩

/-! ### Reassembly (42 R150) -/

/-- Unclassified chunks that fit BUF_CAP are appended one after another, and nothing is pushed. -/
theorem afterDeliveries_chunks (chunks : List (List Byte)) {s : State} (hroom : s.HasRoom)
    (hc : ∀ c ∈ chunks, classify s.cfg.val c = .unclassified)
    (hfits : (s.buf ++ chunks.flatten).length ≤ s.cfg.val.bufCap) :
    ∃ t, s.afterDeliveries chunks = some t ∧ t.buf = s.buf ++ chunks.flatten ∧
      t.batchq = s.batchq ∧ t.outq = s.outq ∧ t.cfg = s.cfg := by
  induction chunks generalizing s with
  | nil => exact ⟨s, rfl, by simp, rfl, rfl, rfl⟩
  | cons chunk chunks ih =>
    obtain ⟨hchunk, hchunks⟩ := List.forall_mem_cons.mp hc
    rw [List.flatten_cons, ← List.append_assoc] at hfits ⊢
    have hfirst : s.buf.length + chunk.length ≤ s.cfg.val.bufCap := by
      simp only [List.length_append] at hfits
      omega
    rw [State.afterDeliveries, exec_deliver_of_fits hroom hchunk hfirst]
    exact ih hroom hchunks hfits

theorem ne_nil_of_classified {c : Cfg} {f : List Byte} (h : classify c f ≠ .unclassified) : f ≠ [] := by
  rintro rfl
  exact h rfl

/-- A tag-read frame in Idle starts the buffer and pushes nothing (42 R145). -/
theorem exec_deliver_tagRead {s : State} {frame : List Byte} (hroom : s.HasRoom) (hidle : s.buf = [])
    (hframe : classify s.cfg.val frame = .rfidTagRead) :
    ∃ t, exec (.deliver frame) s = .next t ∧ t.buf = frame ∧
      t.batchq = s.batchq ∧ t.outq = s.outq ∧ t.cfg = s.cfg :=
  ⟨_, deliverFrameWhenIdle s frame .rfidTagRead hroom hframe (by decide) hidle, rfl, rfl, List.append_nil _, rfl⟩

/-- Settles O32: the tag-read frame starts the buffer in Idle, the chunks extend it, and the boundary flushes it. -/
theorem reassemblyIsConcatenation : Obligations.ReassemblyIsConcatenation := by
  intro s frame chunks boundary hroom hidle hframe hchunks hfits hboundary
  obtain ⟨s₁, hstart, hbuf₁, hbatchq₁, houtq₁, hcfg₁⟩ := exec_deliver_tagRead hroom hidle hframe
  have hroom₁ : s₁.HasRoom := by rwa [State.HasRoom, houtq₁, hbatchq₁, hcfg₁]
  obtain ⟨t, hrun, hbuf, hbatchq, houtq, hcfg⟩ :=
    afterDeliveries_chunks chunks hroom₁ (by rwa [hcfg₁]) (by rwa [hbuf₁, hcfg₁])
  simp only [hbuf₁, hbatchq₁, houtq₁, hcfg₁] at hbuf hbatchq houtq hcfg
  have hroom_t : t.HasRoom := by rwa [State.HasRoom, houtq, hbatchq, hcfg]
  have hbuf_t : t.buf ≠ [] := by
    rw [hbuf]
    exact List.append_ne_nil_of_left_ne_nil (ne_nil_of_classified (c := s.cfg.val) (by simp [hframe])) _
  have hlast := deliverFrameWhenAccumulating t boundary _ hroom_t rfl (by rwa [hcfg]) hbuf_t
  refine ⟨t, _, ?run, hbuf, hbatchq, houtq, hlast, ?batch⟩
  case run => rwa [State.afterDeliveries, hstart]
  case batch => simp only [hbuf, hbatchq, hcfg]

end Sys2Proof.Machine
end

section
/-! The tag record extractor (43_tag_extractor.md R170 to R181): one round of the loop in each of its cases, what an OK
batch says of its input and of an input that goes on, and the visual ID. -/

namespace Sys2Proof.Machine

/-! ### One round of the extraction loop (43 R170 to R174) -/

/-- 43 R171: one byte where a product code should start. -/
theorem extractBatch_singleton (b : Byte) : extractBatch [b] = ⟨.truncatedFrame, []⟩ := rfl

/-- 43 R172: the product code is zero. -/
theorem extractBatch_of_zero_code {h l : Byte} (hpc : be16 h l = 0#16) (body : List Byte) :
    extractBatch (h :: l :: body) = ⟨.invalidProductCode, []⟩ := by
  rw [extractBatch_cons, readRecord, if_pos hpc]

/-- 43 R174: fewer than L + 1 bytes follow the product code. -/
theorem extractBatch_of_short_body {h l : Byte} {body : List Byte} (hpc : be16 h l ≠ 0#16)
    (hshort : body.length < idLength (be16 h l) + 1) :
    extractBatch (h :: l :: body) = ⟨.truncatedFrame, []⟩ := by
  rw [extractBatch_cons, readRecord, if_neg hpc, readBody_short hshort]

/-- 43 R170, R175: a whole record comes before the batch of the rest. -/
theorem extractBatch_of_record {h l : Byte} {id : List Byte} (hpc : be16 h l ≠ 0#16)
    (hid : id.length = idLength (be16 h l)) (rssi : Byte) (rest : List Byte) :
    extractBatch (h :: l :: (id ++ rssi :: rest)) = (extractBatch rest).prepend [makeRecord (be16 h l) id rssi] := by
  rw [extractBatch_cons, readRecord, if_neg hpc, readBody_append _ _ _ _ hid]

/-- Settles O33: the rounds above, with L written out. -/
theorem extractionRound : Obligations.ExtractionRound := by
  refine ⟨extractBatch_nil, extractBatch_singleton, fun _ _ body hpc => extractBatch_of_zero_code hpc body, ?short,
    ?record⟩
  case short =>
    intro h l body hpc hshort
    exact extractBatch_of_short_body hpc (by rwa [idLength_eq])
  case record =>
    intro h l rssi id rest hpc hid
    exact extractBatch_of_record hpc (by rwa [idLength_eq]) rssi rest

/-! ### What an OK batch says of its input (43 R174, R181) -/

/-- Settles O36: by induction over extraction, where a record's product code is its first two bytes. -/
theorem extractionLosesNoByte : Obligations.ExtractionLosesNoByte := by
  intro input
  induction input using extractBatch_induction with
  | nil => intro; rfl
  | error input k hk => rcases hk with rfl | rfl <;> simp
  | record b0 b1 id rssi rest hpc hid hok ih =>
    intro
    obtain ⟨hhigh, hlow⟩ := bytes_be16 b0 b1
    rw [List.flatMap_cons, ← ih hok]
    simp [makeRecord, hhigh, hlow]

theorem Batch.prepend_of_ok {b : Batch} (h : b.status = .ok) (recs : List TagRecord) :
    b.prepend recs = ⟨.ok, recs ++ b.records⟩ :=
  if_pos h

theorem Batch.prepend_of_error {b : Batch} (h : b.status ≠ .ok) (recs : List TagRecord) :
    b.prepend recs = ⟨b.status, []⟩ :=
  if_neg h

theorem Batch.prepend_prepend (b : Batch) (recs recs' : List TagRecord) :
    (b.prepend recs').prepend recs = b.prepend (recs ++ recs') := by
  by_cases h : b.status = .ok
  · rw [b.prepend_of_ok h, b.prepend_of_ok h, Batch.prepend_of_ok rfl, List.append_assoc]
  · rw [b.prepend_of_error h, b.prepend_of_error h]
    exact Batch.prepend_of_error (b := ⟨b.status, []⟩) h recs

theorem extractBatch_prepend_nil (input : List Byte) : (extractBatch input).prepend [] = extractBatch input :=
  (extractLoop_eq _ input [] le_rfl).symm

/-- After a body that extracts OK the loop is at a record boundary: what follows decides the batch, as if it came
alone. -/
theorem extractBatch_append {body : List Byte} (hok : (extractBatch body).status = .ok) (tail : List Byte) :
    extractBatch (body ++ tail) = (extractBatch tail).prepend (extractBatch body).records := by
  revert hok
  induction body using extractBatch_induction with
  | nil => exact fun _ => (extractBatch_prepend_nil tail).symm
  | error input k hk => rcases hk with rfl | rfl <;> simp
  | record b0 b1 id rssi rest hpc hid hok ih =>
    intro
    calc extractBatch (b0 :: b1 :: (id ++ rssi :: rest) ++ tail)
      _ = extractBatch (b0 :: b1 :: (id ++ rssi :: (rest ++ tail))) := by simp
      _ = (extractBatch (rest ++ tail)).prepend [makeRecord (be16 b0 b1) id rssi] :=
        extractBatch_of_record hpc hid rssi _
      _ = _ := by rw [ih hok, Batch.prepend_prepend]; rfl

/-- Settles O37: the second body starts at a record boundary of the whole. One record, cut after its first byte, shows
that the converse fails. -/
theorem extractionConcatenates : Obligations.ExtractionConcatenates := by
  refine ⟨fun a b ha hb => ?_, [0x00#8], [0x01#8, 0xC5#8], by decide, by decide⟩
  rw [extractBatch_append ha, Batch.prepend_of_ok hb]

/-! ### The visual ID (43 R176) -/

/-- The bytes a visual ID is read from. -/
theorem take_drop_visual {id : List Byte} (h : 11 ≤ id.length) :
    (id.drop 3).take 8 = [id[3], id[4], id[5], id[6], id[7], id[8], id[9], id[10]] := by
  simp (disch := omega) only [List.drop_eq_getElem_cons, Nat.reduceAdd, List.take_succ_cons, List.take_zero]

/-- Eight bytes have a value of 64 bits. -/
theorem be64_toNat {s : List Byte} (h : s.length = 8) : (be64 s).toNat = beNat s := by
  have hlt := beNat_lt s
  rw [h] at hlt
  exact Nat.mod_eq_of_lt hlt

theorem bytesBe_be64 {s : List Byte} (h : s.length = 8) : bytesBe (be64 s).toNat 8 = s := by
  rw [be64_toNat h, ← h, bytesBe_beNat]

theorem visualId_reversed {id : List Byte} (h : 11 ≤ id.length) :
    visualId id = (true, be64 [id[10], id[9], id[8], id[7], id[6], id[5], id[4], id[3]]) := by
  rw [visualId_long h, take_drop_visual h]
  rfl

/-- Settles O40: eight bytes fit 64 bits, and the value of the reversed bytes is a sum over them. -/
theorem visualIdIsLittleEndian : Obligations.VisualIdIsLittleEndian := by
  refine ⟨fun _ => visualId_short, fun id h => ?_⟩
  rw [take_drop_visual h, visualId_reversed h]
  refine ⟨rfl, be64_toNat rfl, ?_⟩
  rw [be64_toNat rfl]
  simp only [beNat, List.foldl_cons, List.foldl_nil]
  ring

/-! ### The requests (43 R177, R178) -/

/-- Settles O34: the encoding and the batch image are their definitions written out. -/
theorem extractAnswersBatch : Obligations.ExtractAnswersBatch :=
  fun _ _ => ⟨rfl, rfl⟩

/-- Settles O39: the big-endian image of a big-endian value gives the bytes back. -/
theorem visualIdReversesBytes : Obligations.VisualIdReversesBytes := by
  refine fun s id => ⟨rfl, fun h => ?short, fun h => ?long⟩
  case short =>
    rw [exec, execVisualid, visualId_short h]
    rfl
  case long =>
    rw [exec, execVisualid, visualId_reversed h, bytesBe_be64 rfl, bytesBe_one]
    rfl

end Sys2Proof.Machine
end

section
/-! The command dispatcher inside DELIVER (44_dispatcher_and_control.md R200 to R204): what a notification and an
acknowledgment do after the flush. -/

namespace Sys2Proof.Machine

/-! ### The frames a notification calls for (44 R200) -/

theorem triggerFrames_of_eventCode {c : Cfg} {f : List Byte} {e : BitVec 16} (he : eventCode (payload f) = .ok e) :
    triggerFrames c f =
      if e = c.ntfTrigPushed then [outboundFrame c (catalogEntry c (startIdx c))]
      else if e = c.ntfTrigReleased then [outboundFrame c (catalogEntry c (abortIdx c))]
      else [] := by
  rw [← dispatchCommand_frames, dispatchCommand, he]
  dsimp only
  split_ifs <;> rfl

theorem triggerFrames_of_no_event {c : Cfg} {f : List Byte} {k : Status} (he : eventCode (payload f) = .error k) :
    triggerFrames c f = [] := by
  rw [← dispatchCommand_frames, dispatchCommand, he]
  rfl

/-- The pushed code calls for start inventory, which a well-formed configuration has (44 R201). -/
theorem triggerFrames_of_pushed {c : Config} {f : List Byte} (he : eventCode (payload f) = .ok c.val.ntfTrigPushed) :
    ∃ start, c.val.catalog[c.val.nInit]? = some start ∧ triggerFrames c.val f = [hdrDown c.val ++ start] :=
  ⟨_, catalogEntry_get c (Nat.le_succ _), by rw [triggerFrames_of_eventCode he, if_pos rfl]; rfl⟩

/-- The released code, which is not the pushed one (00 R9), calls for abort inventory (44 R202). -/
theorem triggerFrames_of_released {c : Config} {f : List Byte}
    (he : eventCode (payload f) = .ok c.val.ntfTrigReleased) :
    ∃ abort, c.val.catalog[c.val.nInit + 1]? = some abort ∧ triggerFrames c.val f = [hdrDown c.val ++ abort] := by
  obtain ⟨-, -, htrig, -⟩ := configuration_constraints c
  exact ⟨_, catalogEntry_get c (Nat.le_refl _),
    by rw [triggerFrames_of_eventCode he, if_neg htrig.symm, if_pos rfl]; rfl⟩

/-! ### Deliveries -/

theorem flush_batchq_eq (s : State) : (flush s).2.batchq =
    s.batchq ++ (if s.buf = [] then [] else [extractBatch (s.buf.drop s.cfg.val.flushSkip)]) := by
  by_cases hbuf : s.buf = []
  · simp [flush_idle hbuf, hbuf]
  · simp [flush_accumulating hbuf, hbuf]

/-- A notification flushes, queues its trigger frames and sets LAST_CLASS to 0 (42 R142, R144). -/
theorem exec_deliver_of_notification {s : State} {f : List Byte} (hroom : s.HasRoom) (hlen : 8 ≤ f.length)
    (hdest : f[3]? = some s.cfg.val.destNotif) :
    ∃ t, exec (.deliver f) s = .next t ∧ t.outq = s.outq ++ triggerFrames s.cfg.val f ∧ t.buf = [] ∧
      t.lastClass = 0#3 ∧
      t.batchq = s.batchq ++ (if s.buf = [] then [] else [extractBatch (s.buf.drop s.cfg.val.flushSkip)]) := by
  have hc : classify s.cfg.val f = .notification := classify_eq_notification_iff.mpr ⟨hlen, hdest⟩
  exact ⟨_, exec_deliver_of_classified hroom hc (by decide), rfl, rfl, rfl, flush_batchq_eq s⟩

/-- A notification that calls for one frame queues it, after the flush of the bytes buffered. -/
theorem exec_deliver_of_trigger {s : State} {f cmd : List Byte} (hroom : s.HasRoom) (hlen : 8 ≤ f.length)
    (hdest : f[3]? = some s.cfg.val.destNotif) (hframes : triggerFrames s.cfg.val f = [hdrDown s.cfg.val ++ cmd]) :
    ∃ t, exec (.deliver f) s = .next t ∧ t.outq = s.outq ++ [hdrDown s.cfg.val ++ cmd] ∧ t.buf = [] ∧
      (s.buf ≠ [] → t.batchq = s.batchq ++ [extractBatch (s.buf.drop s.cfg.val.flushSkip)]) := by
  obtain ⟨t, ht, hout, hbuf, -, hbatch⟩ := exec_deliver_of_notification hroom hlen hdest
  exact ⟨t, ht, hframes ▸ hout, hbuf, fun hne => by rw [hbatch, if_neg hne]⟩

/-- Settles O26: each of the two codes calls for one frame, by `triggerFrames_of_pushed` and
`triggerFrames_of_released`. -/
theorem triggersEmitTheirCommand : Obligations.TriggersEmitTheirCommand := by
  intro s f h l hroom hdest h8 h9
  obtain ⟨hlen, -⟩ := List.getElem?_eq_some_iff.mp h8
  refine ⟨fun he => ?pushed, fun he => ?released⟩
  case pushed =>
    obtain ⟨start, hget, hframes⟩ := triggerFrames_of_pushed (eventCode_payload_eq_ok_iff.mpr ⟨h, l, h8, h9, he⟩)
    obtain ⟨t, ht, hstate⟩ := exec_deliver_of_trigger hroom hlen.le hdest hframes
    exact ⟨t, start, ht, hget, hstate⟩
  case released =>
    obtain ⟨abort, hget, hframes⟩ := triggerFrames_of_released (eventCode_payload_eq_ok_iff.mpr ⟨h, l, h8, h9, he⟩)
    obtain ⟨t, ht, hstate⟩ := exec_deliver_of_trigger hroom hlen.le hdest hframes
    exact ⟨t, abort, ht, hget, hstate⟩

/-- Settles O27: such a notification has no event code, or one that is neither trigger, and calls for no frame. -/
theorem otherNotificationsOnlyFlush : Obligations.OtherNotificationsOnlyFlush := by
  intro s f hroom hlen hdest hother
  have hframes : triggerFrames s.cfg.val f = [] := by
    cases he : eventCode (payload f) with
    | error k => exact triggerFrames_of_no_event he
    | ok e =>
      obtain ⟨h, l, h8, h9, rfl⟩ := eventCode_payload_eq_ok_iff.mp he
      obtain ⟨hpushed, hreleased⟩ := hother h l h8 h9
      rw [triggerFrames_of_eventCode he, if_neg hpushed, if_neg hreleased]
  obtain ⟨t, ht, hout, hrest⟩ := exec_deliver_of_notification hroom hlen hdest
  exact ⟨t, ht, by rw [hout, hframes, List.append_nil], hrest⟩

/-- Settles O28: the class action of an acknowledgment is the count; the buffer is already empty after the flush. -/
theorem acknowledgmentOnlyCounts : Obligations.AcknowledgmentOnlyCounts := by
  intro s f h l hroom hdest h8 h9 he
  obtain ⟨hlen, -⟩ := List.getElem?_eq_some_iff.mp h8
  have hclass : rfidClass s.cfg.val f = .rfidCommandAck :=
    rfidClass_eq_commandAck_iff.mpr (eventCode_payload_eq_ok_iff.mpr ⟨h, l, h8, h9, he⟩)
  have hc : classify s.cfg.val f = .rfidCommandAck := (classify_of_rfid hlen.le hdest).trans hclass
  have hout : s.outq ++ actionFrames s.cfg.val .rfidCommandAck f = s.outq := List.append_nil _
  refine ⟨_, exec_deliver_of_classified hroom hc (by decide), BitVec.toNat_add _ _, rfl, ?afterFlush, hout, rfl,
    flush_batchq_eq s⟩
  case afterFlush => simp [hout, flush_buf]

end Sys2Proof.Machine
end

section
/-! The output ports and the control requests (44_dispatcher_and_control.md R205 to R210). -/

namespace Sys2Proof.Machine

/-! ### The output ports (44 R205, R206) -/

theorem exec_popOut_of_empty {s : State} (h : s.outq = []) : exec .popOut s = .next (s.raise .empty) := by
  rw [exec, execPopOut, h]

theorem exec_popOut_of_cons {s : State} {frame : List Byte} {rest : List (List Byte)} (h : s.outq = frame :: rest) :
    exec .popOut s = .next ((s.dropOut rest).respond .ok frame) := by
  rw [exec, execPopOut, h]

theorem exec_popBatch_of_empty {s : State} (h : s.batchq = []) : exec .popBatch s = .next (s.raise .empty) := by
  rw [exec, execPopBatch, h]

theorem exec_popBatch_of_cons {s : State} {b : Batch} {rest : List Batch} (h : s.batchq = b :: rest) :
    exec .popBatch s = .next ((s.dropBatch rest).respond .ok b.image) := by
  rw [exec, execPopBatch, h]

/-- Settles O43: whether OUTQ has a head decides between the two answers. -/
theorem popOutTakesOldest : Obligations.PopOutTakesOldest :=
  fun _ => ⟨rfl, exec_popOut_of_empty, fun _ _ => exec_popOut_of_cons⟩

/-- Settles O44: whether BATCHQ has a head decides between the two answers; the status of the batch is not looked at. -/
theorem popBatchTakesOldest : Obligations.PopBatchTakesOldest :=
  fun _ => ⟨rfl, exec_popBatch_of_empty, fun _ _ => exec_popBatch_of_cons⟩

/-! ### STATUS (44 R207, 10 R32) -/

/-- A length in two bytes, high byte first, as quotient and remainder. -/
theorem bytesBe_two_div_mod (v : Nat) : bytesBe v 2 = [BitVec.ofNat 8 (v / 256), BitVec.ofNat 8 (v % 256)] := by
  have hlow : BitVec.ofNat 8 v = BitVec.ofNat 8 (v % 256) := BitVec.eq_of_toNat_eq (by simp)
  simp [bytesBe, hlow]

theorem State.accum_toNat (s : State) : s.accum.toNat = if s.buf = [] then 0 else 1 := by
  by_cases hbuf : s.buf = [] <;> simp [State.accum, State.mode, hbuf]

/-- LAST_CLASS above ACCUM, in the low four bits of byte 0. -/
theorem State.statusByte_toNat (s : State) :
    s.statusByte.toNat = 2 * s.lastClass.toNat + (if s.buf = [] then 0 else 1) := by
  rw [State.statusByte, BitVec.toNat_append, BitVec.toNat_append, ← s.accum_toNat,
    ← Nat.shiftLeft_add_eq_or_of_lt s.accum.isLt]
  simp [Nat.shiftLeft_eq, Nat.mul_comm]

theorem State.statusImage_eq (s : State) :
    s.statusImage =
      [s.statusByte, s.lastFlush, BitVec.ofNat 8 (s.buf.length / 256), BitVec.ofNat 8 (s.buf.length % 256),
        BitVec.ofNat 8 s.outq.length, BitVec.ofNat 8 s.batchq.length,
        s.ackCount.extractLsb' 8 8, s.ackCount.extractLsb' 0 8,
        s.discardCount.extractLsb' 8 8, s.discardCount.extractLsb' 0 8] := by
  rw [State.statusImage, bytesBe_two_div_mod, bytesBe_one, bytesBe_one, bytesBe_two, bytesBe_two]
  rfl

/-- Settles O45: the image is `statusImage_eq`; a legal state keeps the codes legal and, within the capacities of its
configuration, the lengths in their fields. -/
theorem statusShowsEveryField : Obligations.StatusShowsEveryField := by
  intro s hs
  obtain ⟨-, -, -, -, -, -, -, -, hcap, -, hout, -, hbatch⟩ := configuration_constraints s.cfg
  have hbufFits := hs.buf_fits
  have houtFits := hs.outq_fits
  have hbatchFits := hs.batchq_fits
  refine ⟨s.statusByte, rfl, ?image, s.statusByte_toNat, hs.lastClass_legal.imp_right (congrArg BitVec.toNat),
    hs.lastFlush_legal.imp_right (congrArg BitVec.toNat), by omega, by omega, by omega⟩
  case image =>
    rw [exec, execStatus, State.statusImage_eq]
    rfl

/-! ### SESSION_RESET and NOP (44 R208, R209) -/

/-- Settles O46: `bufClear` and `clearStatus` are the writes of R208, and neither touches a queue. -/
theorem sessionResetStartsNewSession : Obligations.SessionResetStartsNewSession :=
  fun _ => ⟨rfl, rfl⟩

/-- Settles O47: NOP's encoding evaluated, and its only effect, the response. -/
theorem nopAnswersOk : Obligations.NopAnswersOk :=
  fun _ => ⟨by decide, rfl⟩

/-! ### Reserved opcodes (44 R210) -/

/-- A step runs the request encoded at the head of the port (30 R78, 60 R234). -/
theorem step_of_encoded {s : State} {i : Instr} {rest : List Byte} (hi : i.wf = true) (hrx : s.rx = encode i ++ rest) :
    step s = exec i { s with rx := rest } :=
  stepRunsDecodedRequest s i rest (by rw [hrx, decodeInvertsEncode i rest hi])

/-- Settles O48: the bytes at the port encode the reserved request of that opcode. -/
theorem reservedOpcodesAnswerIllegalOp : Obligations.ReservedOpcodesAnswerIllegalOp := by
  refine fun s rsv arg rest => ⟨⟨rfl, rfl⟩, ?_⟩
  rintro op (rfl | rfl) hlen hrx
  · exact step_of_encoded (i := .reservedE rsv arg) (decide_eq_true hlen) hrx
  · exact step_of_encoded (i := .reservedF rsv arg) (decide_eq_true hlen) hrx

end Sys2Proof.Machine
end

section
/-! Errors (60_exceptions.md R230 to R237): what an error leaves unchanged, that every request and every step completes,
how a delivery records the batch result it pushes, and the status codes. -/

namespace Sys2Proof.Machine

/-! ### Errors change nothing, and nothing stops the block (60 R233, R236, R237) -/

/-- Settles O50: by `exec_cases`, a request that does more than answer answers OK. -/
theorem requestErrorsChangeNothing : Obligations.RequestErrorsChangeNothing := by
  intro i s
  rcases exec_cases i s with ⟨st, data, h⟩ | ⟨-, -, h⟩ | ⟨f, -, -, -, h⟩ | ⟨frame, rest, -, -, h⟩ |
    ⟨b, rest, -, -, h⟩ | ⟨-, h⟩
  case inl => exact ⟨_, ⟨st, data⟩, h, rfl, fun _ => rfl⟩
  all_goals exact ⟨_, _, h, rfl, fun hne => absurd rfl hne⟩

theorem exec_completes (i : Instr) (s : State) : ∃ t, exec i s = .next t := by
  obtain ⟨t, -, ht, -⟩ := requestErrorsChangeNothing i s
  exact ⟨t, ht⟩

/-- Settles O8: a step runs a request, which completes, or refuses one, or waits. -/
theorem everyRequestCompletes : Obligations.EveryRequestCompletes := by
  refine ⟨exec_completes, fun s => ?_⟩
  rcases step_cases s with ⟨i, rest, -, h⟩ | ⟨why, rest, -, h⟩ | ⟨-, h⟩
  · rw [h]
    exact exec_completes i (s.accept rest)
  · exact ⟨_, h⟩
  · exact ⟨_, h⟩

/-! ### LAST_FLUSH and DISCARD_COUNT (60 R233, 10 R29, R31) -/

/-- From s to t either no batch result was pushed and the flush status is as it was, or one was pushed, without records
when it failed, and LAST_FLUSH and DISCARD_COUNT follow it. -/
def State.RecordsBatch (s t : State) : Prop :=
  (t.batchq = s.batchq ∧ t.lastFlush = s.lastFlush ∧ t.discardCount = s.discardCount) ∨
    ∃ b : Batch, t.batchq = s.batchq ++ [b] ∧ t.lastFlush = b.status.code ∧
      t.discardCount = s.discardCount + (if b.status = .ok then 0#16 else 1#16) ∧
      (b.status ≠ .ok → b.records = [])

theorem State.recordsBatch_refl (s : State) : s.RecordsBatch s :=
  .inl ⟨rfl, rfl, rfl⟩

theorem State.recordsBatch_pushBatch (s : State) {b : Batch} (hfailed : b.status ≠ .ok → b.records = []) :
    s.RecordsBatch (s.pushBatch b) := by
  refine .inr ⟨b, rfl, rfl, ?discards, hfailed⟩
  by_cases hok : b.status = .ok <;> simp [hok]

theorem flush_recordsBatch (s : State) : s.RecordsBatch (flush s).2 := by
  by_cases hbuf : s.buf = []
  · rw [flush_idle hbuf]
    exact s.recordsBatch_refl
  · obtain ⟨-, hfailed, -⟩ := extractBatch_legal (s.buf.drop s.cfg.val.flushSkip)
    rw [flush_accumulating hbuf]
    exact s.recordsBatch_pushBatch hfailed

/-- Settles O31: a classified delivery records what its flush pushed, an overflow its error batch; the other deliveries
push nothing. -/
theorem deliveryRecordsBatchResult : Obligations.DeliveryRecordsBatchResult := by
  intro s f
  by_cases hroom : s.HasRoom
  · by_cases hc : classify s.cfg.val f = .unclassified
    · rcases Nat.lt_or_ge s.cfg.val.bufCap (s.buf.length + f.length) with hover | hfits
      · exact ⟨_, exec_deliver_of_overflow hroom hc hover,
          s.recordsBatch_pushBatch (b := ⟨.bufferOverflow, []⟩) fun _ => rfl⟩
      · exact ⟨_, exec_deliver_of_fits hroom hc hfits, s.recordsBatch_refl⟩
    · exact ⟨_, exec_deliver_of_classified hroom rfl hc, flush_recordsBatch s⟩
  · have hfull : s.outq.length = s.cfg.val.outDepth ∨ s.batchq.length = s.cfg.val.batchDepth := by
      simpa only [not_and_or, not_not] using hroom
    exact ⟨_, deliverBusyChangesNothing s f hfull, s.recordsBatch_refl⟩

/-! ### The status codes (60 R230) -/

theorem Status.code_toNat_lt (k : Status) : k.code.toNat < 8 := by
  cases k <;> decide

theorem Response.image_head? (r : Response) : r.image.head? = some r.status.code := rfl

theorem Batch.image_head? (b : Batch) : b.image.head? = some b.status.code := rfl

/-- Settles O53: the codes evaluated; both images begin with one. -/
theorem statusCodesLeadEveryImage : Obligations.StatusCodesLeadEveryImage :=
  ⟨by decide, Status.code_toNat_lt, Response.image_head?, Batch.image_head?⟩

end Sys2Proof.Machine
end

section
/-! Reset and hazards (70_reset_and_hazards.md R260, R261, R266): the state after reset, what SESSION_RESET keeps beside
it, and padding after good records. -/

namespace Sys2Proof.Machine

/-! ### Padding at a record boundary (70 R266) -/

/-- An input that fails on its own fails the same way after a body that extracts OK, and the body's records are lost
(43 R175). -/
theorem extractBatch_append_of_failed {body tail : List Byte} {k : Status} (hok : (extractBatch body).status = .ok)
    (hk : k ≠ .ok) (htail : extractBatch tail = ⟨k, []⟩) : extractBatch (body ++ tail) = ⟨k, []⟩ := by
  rw [extractBatch_append hok, htail]
  exact Batch.prepend_of_error (b := ⟨k, []⟩) hk _

/-- Settles O38: the padding starts at a record boundary, where two zero bytes are a zero product code and a single byte
is half of one. -/
theorem trailingPaddingFailsBatch : Obligations.TrailingPaddingFailsBatch := by
  refine fun body hok => ⟨fun rest => ?zeros, fun b => ?single⟩
  case zeros => exact extractBatch_append_of_failed hok (by decide) (extractBatch_of_zero_code (by decide) rest)
  case single => exact extractBatch_append_of_failed hok (by decide) (extractBatch_singleton b)

/-! ### The state after reset (70 R260) -/

/-- Under any configuration the state after reset is legal: nothing is buffered or queued, and LAST_CLASS and LAST_FLUSH
have the values that stand for none (10 R28, R29). -/
theorem State.inv_resetWith (c : Config) : (State.resetWith c).Inv where
  buf_fits := Nat.zero_le _
  outq_fits := Nat.zero_le _
  outq_frames := List.forall_mem_nil _
  batchq_fits := Nat.zero_le _
  batchq_legal := List.forall_mem_nil _
  batchq_bounded := List.forall_mem_nil _
  lastClass_legal := .inr rfl
  lastFlush_legal := .inr rfl

/-- Settles O55: reset is legal under every configuration, so under the implementation's. -/
theorem resetStateIsLegal : Obligations.ResetStateIsLegal :=
  State.inv_resetWith Config.implementation

/-- Settles O56: `State.resetWith` writes these values, and a host reset takes the running block's configuration. -/
theorem resetValues : Obligations.ResetValues :=
  ⟨⟨rfl, rfl, rfl, rfl, rfl, rfl, rfl⟩, fun s =>
    ⟨s.buf_hostReset, s.outq_hostReset, s.batchq_hostReset, s.lastClass_hostReset, s.lastFlush_hostReset,
      s.ackCount_hostReset, s.discardCount_hostReset, s.cfg_hostReset⟩⟩

/-! ### SESSION_RESET beside reset (70 R261) -/

/-- Settles O57: what R208 writes are the reset values of every element but the queues, so emptying these gives the host
reset's state. -/
theorem sessionResetKeepsQueues : Obligations.SessionResetKeepsQueues := by
  intro s
  obtain ⟨-, hexec⟩ := sessionResetStartsNewSession s
  exact ⟨_, hexec, rfl, rfl, rfl⟩

end Sys2Proof.Machine
end
